-- ==== Sys2Proof/Word.lean ====
section
/-! DEFINITION. The widths of the block (spec/00_scope.md R4): the 32-bit command word and results, the 16-bit raw values and
parameter registers, the bytes of a threshold pair. -/

namespace Sys2Proof

/-- A command word or a result register: `CMDW` and `RW` of R4. -/
abbrev Word := BitVec 32

/-- A raw value, an immediate or a parameter register: `PW` of R4. -/
abbrev Half := BitVec 16

/-- One half of a threshold pair (R33). -/
abbrev Byte := BitVec 8

end Sys2Proof
end

