-- ==== Sys2Proof/Machine/State.lean ====
section
/-! DEFINITION. The state of the block (spec/10_state.md): its registers, its command port, and the model's own schedule of what the
host drives. Plain data; the block has no memory and no program counter (R20, R22, R30). -/

namespace Sys2Proof.Machine

/-- What the host drives at one rising edge of `clk` (10_state.md R18, R19). `extraEdges` is `LAT - 1` for a command accepted at
this edge: LAT is an open parameter, at least 1, that may differ from command to command (00_scope.md R4, 70_reset_and_hazards.md
R131; log 3). -/
structure EdgeInput where
  rst : Bool
  cmdValid : Bool
  cmdWord : Word
  extraEdges : Nat
  deriving DecidableEq, Repr

/-- A command between acceptance and completion (R19): its word, and how many edges pass before the one that completes it. -/
structure InFlight where
  word : Word
  edgesLeft : Nat
  deriving DecidableEq, Repr

/-- The whole state of the block. -/
structure State where
  /-- `P[0]` to `P[5]` (R10). -/
  p : Vector Half 6
  /-- `RSENSE`, milliohms (R13). -/
  rsense : Half
  /-- `RES` (R14). -/
  res : Word
  /-- `AUX` (R15). -/
  aux : Word
  /-- `STAT` (R16), the 16-bit word; its fields are read and written in Flags.lean. -/
  stat : Half
  /-- `ERRVAL` (R17). -/
  errval : Word
  /-- `rsp_valid` (R18, R19). -/
  rspValid : Bool
  /-- The command in flight, if any (R19, R121). -/
  inFlight : Option InFlight
  /-- MODEL's own: what the host drives at the coming edges; past its end the host drives nothing (log 4). One host
  drives the port (log 18). -/
  schedule : List EdgeInput
  deriving DecidableEq, Repr

/-- The machine never stops with a fault: `step` is total (R21, 30_encoding.md R51), and a failing command completes with a status
code in `STAT.ERR` (60_exceptions.md R101, R110). So there is no constructor (log 1). -/
inductive Fault where
  deriving DecidableEq, Repr

/-- Why an instruction has no meaning in the model. -/
inductive Refusal where
  /-- Raised by an arm of `exec` for an instruction not modelled yet; safe, for the machine stops. No arm raises it now (log 1). -/
  | notModelled (mnemonic : String)
  deriving DecidableEq, Repr

/-- R23: after reset every bit of the block's state is zero; R120: `rsp_valid` is 0; R121: no command is in flight. The empty
schedule is an idle host (DESIGN CHOICE, log 4). -/
def State.reset : State :=
  { p := Vector.replicate 6 0#16
    rsense := 0#16
    res := 0#32
    aux := 0#32
    stat := 0#16
    errval := 0#32
    rspValid := false
    inFlight := none
    schedule := [] }

end Sys2Proof.Machine
end

