-- ==== Sys2Proof/Machine/Flags.lean ====
section
/-! DEFINITION. The fields of `STAT` (spec/10_state.md R16) and the status codes (spec/60_exceptions.md R102). A field is written
by building the word again from its fields, so that every other bit keeps its value. -/

namespace Sys2Proof.Machine

/-- The exceptions of the block (R102). The source's BusError, Timeout, NonvolatileError, InvalidAddress and InvalidDevice arise
in the environment and have none here (R103). -/
inductive Cause where
  | invalidConfigurationValue
  | illegalCommand
  | notCalibrated
  | calLocked
  deriving DecidableEq, Repr

/-- The status code of an exception, `code(<Exception>)` (R102). -/
def statusCode : Cause → BitVec 3
  | .invalidConfigurationValue => 1#3
  | .illegalCommand => 2#3
  | .notCalibrated => 3#3
  | .calLocked => 4#3

/-- `STAT.ERR`, bits 2:0. -/
def statErr (st : Half) : BitVec 3 := st.extractLsb' 0 3

/-- `STAT.RV`, bit 3. -/
def statRv (st : Half) : Bool := st.getLsbD 3

/-- `STAT.CALV`, bit 4. -/
def statCalv (st : Half) : Bool := st.getLsbD 4

/-- `STAT.SE`, bit 5. -/
def statSe (st : Half) : Bool := st.getLsbD 5

/-- `STAT[15:6]`, reserved. -/
def statReserved (st : Half) : BitVec 10 := st.extractLsb' 6 10

/-- A `STAT` word from its fields. -/
def statWord (reserved : BitVec 10) (se calv rv : Bool) (err : BitVec 3) : Half :=
  reserved ++ (BitVec.ofBool se ++ (BitVec.ofBool calv ++ (BitVec.ofBool rv ++ err)))

/-- `STAT.ERR <- err`. -/
def statWithErr (st : Half) (err : BitVec 3) : Half :=
  statWord (statReserved st) (statSe st) (statCalv st) (statRv st) err

/-- `STAT.RV <- rv`. -/
def statWithRv (st : Half) (rv : Bool) : Half :=
  statWord (statReserved st) (statSe st) (statCalv st) rv (statErr st)

/-- `STAT.CALV <- calv`. -/
def statWithCalv (st : Half) (calv : Bool) : Half :=
  statWord (statReserved st) (statSe st) calv (statRv st) (statErr st)

/-- `STAT.SE <- se`. -/
def statWithSe (st : Half) (se : Bool) : Half :=
  statWord (statReserved st) se (statCalv st) (statRv st) (statErr st)

end Sys2Proof.Machine
end

