-- ==== Sys2Proof/Config.lean ====
section
/-! DEFINITION. The parameters of the block (spec/00_scope.md R4) and the constraint on the four open masks (R6). The open masks are
an opaque choice from which R6 follows by construction (log 2); the latency LAT is no constant here (log 3). -/

namespace Sys2Proof.Config

/-- `K_VOLT`, result unit 0.125 microvolt (R4, R60). UNVERIFIED literal of the source (log 14). -/
def kVolt : Int := 625

/-- `K_CAP`, result unit 1 microampere-hour before division (R4, R60). UNVERIFIED literal of the source (log 14). -/
def kCap : Int := 5000

/-- `K_CUR`, result unit 0.1 microampere before division (R4, R60). UNVERIFIED literal of the source (log 14). -/
def kCur : Int := 15625

/-- `K_TIME`, result unit 0.125 second (R4, R60). UNVERIFIED literal of the source (log 14). -/
def kTime : Int := 45

/-- `VTH_LSB_MV`, millivolts per threshold-byte step (R4). UNVERIFIED literal of the source (log 14). -/
def vthLsbMv : Int := 20

/-- `VTH_MAX_MV`, the top of the valid threshold range in millivolts (R4). UNVERIFIED literal of the source (log 14). -/
def vthMaxMv : Int := 5100

/-- `NCELLS_MIN` (R4). -/
def nCellsMin : Int := 2

/-- `NCELLS_MAX` (R4). -/
def nCellsMax : Int := 4

/-- `NTHERMS_MAX` (R4); `NTHERMS_MIN` is 0, which every unsigned count meets. -/
def nThermsMax : Int := 4

/-- The bits of the cell-count and thermistor-count fields, 4:0 (R6, R72). -/
def countBits : Half := 0x001F#16

/-- The four enumerant fields of the configuration code (R72). -/
inductive EnumField where
  | thermistorType
  | chargePumpVoltage
  | regulatorMode
  | updateCadence
  deriving DecidableEq, Repr

/-- The four open masks `MASK_THTYPE`, `MASK_CPV`, `MASK_REGMODE`, `MASK_CADENCE` (R4). -/
structure Masks where
  thermistorType : Half
  chargePumpVoltage : Half
  regulatorMode : Half
  updateCadence : Half
  deriving DecidableEq, Repr

/-- The mask of one enumerant field. -/
def Masks.field (m : Masks) : EnumField → Half
  | .thermistorType => m.thermistorType
  | .chargePumpVoltage => m.chargePumpVoltage
  | .regulatorMode => m.regulatorMode
  | .updateCadence => m.updateCadence

/-- R6: no mask has a bit in common with bits 4:0, and no two masks have a bit in common. -/
abbrev Masks.wf (m : Masks) : Prop :=
  (m.thermistorType &&& countBits = 0#16 ∧ m.chargePumpVoltage &&& countBits = 0#16 ∧
    m.regulatorMode &&& countBits = 0#16 ∧ m.updateCadence &&& countBits = 0#16) ∧
  m.thermistorType &&& m.chargePumpVoltage = 0#16 ∧ m.thermistorType &&& m.regulatorMode = 0#16 ∧
  m.thermistorType &&& m.updateCadence = 0#16 ∧ m.chargePumpVoltage &&& m.regulatorMode = 0#16 ∧
  m.chargePumpVoltage &&& m.updateCadence = 0#16 ∧ m.regulatorMode &&& m.updateCadence = 0#16

/-- The mask of a field, given which field owns each bit: bits 4:0 are never an enumerant's (R6). -/
def maskOf (owner : Nat → Option EnumField) (f : EnumField) : Half :=
  BitVec.ofFnLE fun i => decide (5 ≤ i.val) && decide (owner i.val = some f)

/-- The four masks that an assignment of bits to fields gives. -/
def masksOf (owner : Nat → Option EnumField) : Masks :=
  { thermistorType := maskOf owner .thermistorType
    chargePumpVoltage := maskOf owner .chargePumpVoltage
    regulatorMode := maskOf owner .regulatorMode
    updateCadence := maskOf owner .updateCadence }

/-- The open parameter of R4: which enumerant field, if any, owns each bit of the configuration code. No value is given and
nothing can be proved of one. Every quadruple of masks that R6 admits comes from some assignment (log 2). -/
opaque bitOwner : Nat → Option EnumField

/-- The masks of this block (R4), open but for R6. -/
def masks : Masks := masksOf bitOwner

/-- `CFG_EX` of 00_scope.md section 4: arbitrary masks for the spec's test vectors only, not the device's layout. -/
def exampleMasks : Masks :=
  { thermistorType := 0x0020#16, chargePumpVoltage := 0x00C0#16, regulatorMode := 0x0300#16, updateCadence := 0x0C00#16 }

end Sys2Proof.Config
end

