-- ==== Sys2Proof/Machine/Operands.lean ====
section
/-! DEFINITION. How operands are read and results are formed: the primitives of spec/00_scope.md section 6, the predicate `valid_vth`
(spec/42_threshold.md R75), the byte placement of a threshold pair (spec/20_memory.md R33) and the configuration code
(spec/41_config_encode.md R71, R72). -/

namespace Sys2Proof.Machine

/-- `u(v)`: the unsigned integer value. -/
def uval {n : Nat} (v : BitVec n) : Int := (v.toNat : Int)

/-- `s(v)`: the signed (two's complement) integer value. -/
def sval {n : Nat} (v : BitVec n) : Int := v.toInt

/-- `zext_32(v)`. -/
def zext32 {n : Nat} (v : BitVec n) : Word := v.setWidth 32

/-- `sext_32(v)`. -/
def sext32 {n : Nat} (v : BitVec n) : Word := v.signExtend 32

/-- `enc_32(i)`; every use is in range (40_conversion.md R62; log 12). -/
def enc32 (i : Int) : Word := BitVec.ofInt 32 i

/-- `enc_16(i)`. -/
def enc16 (i : Int) : Half := BitVec.ofInt 16 i

/-- `enc_8(i)`. -/
def enc8 (i : Int) : Byte := BitVec.ofInt 8 i

/-- `tdiv(n, d)`: the quotient truncated toward zero. The spec has `d > 0` (log 17 for a state no run reaches). -/
def tdiv (n d : Int) : Int := n.tdiv d

/-- `trem(n, d) = n - d * tdiv(n, d)`. -/
def trem (n d : Int) : Int := n - d * tdiv n d

/-- `v[15:8]`: the maximum of a pair (R33). -/
def hiByte (v : Half) : Byte := v.extractLsb' 8 8

/-- `v[7:0]`: the minimum of a pair (R33). -/
def loByte (v : Half) : Byte := v.extractLsb' 0 8

/-- `cat(max_byte, min_byte)`: the pair register value, maximum in the high byte (R33). -/
def pairWord (maxByte minByte : Byte) : Half := maxByte ++ minByte

/-- `valid_vth(v)` (R75): a threshold of `v` millivolts is valid. -/
def validVth (v : Int) : Bool :=
  decide (0 ≤ v) && decide (v ≤ Config.vthMaxMv) && decide (v % Config.vthLsbMv = 0)

/-- The byte of a valid threshold, `v / 20`, an exact division (R77). -/
def vthByte (v : Int) : Int := v / Config.vthLsbMv

/-- The millivolts of a threshold byte, `byte * 20` (R69, R83). -/
def byteMv (b : Byte) : Int := uval b * Config.vthLsbMv

/-- `2 <= u(P[0]) <= 4` (R71). -/
def cellsOk (v : Half) : Bool := decide (Config.nCellsMin ≤ uval v) && decide (uval v ≤ Config.nCellsMax)

/-- `u(P[1]) <= 4` (R71). -/
def thermsOk (v : Half) : Bool := decide (uval v ≤ Config.nThermsMax)

/-- `(v & ~mask) == 0` (R71). A zero enumerant is answered first, so that it is legal by computation whatever the mask is ("a
zero enumerant is always legal", R71); the answer is the same. -/
def fitsMask (v mask : Half) : Bool := v == 0#16 || v &&& ~~~mask == 0#16

/-- `u(v) <= 255` (R79). -/
def fitsUnsignedByte (v : Half) : Bool := decide (uval v ≤ 255)

/-- `-128 <= s(v) <= 127` (R80). -/
def fitsSignedByte (v : Half) : Bool := decide (-128 ≤ sval v) && decide (sval v ≤ 127)

/-- The configuration code (R71): the cell-count field in bits 1:0, the thermistor-count field in bits 4:2, and the four
enumerants as they stand. -/
def configCode (cells therms thType cpv regMode cadence : Half) : Half :=
  enc16 (uval cells - 2) ||| (enc16 (uval therms) <<< 2) ||| thType ||| cpv ||| regMode ||| cadence

/-- The parameter register that the operand `k` of LDP names: 0 to 5, and none for 6 and 7 (R47). -/
def paramIndex (k : BitVec 3) : Option (Fin 6) :=
  if h : k.toNat < 6 then some ⟨k.toNat, h⟩ else none

end Sys2Proof.Machine
end

