-- ==== Sys2Proof/Machine/Ops.lean ====
section
/-! DEFINITION. The operations the commands share: reading and writing a parameter register, the calibration, and the three outcomes
of a command, success with a result, success without one, and taking an exception (spec/00_scope.md section 6; spec/60_exceptions.md
R100, R101). There is no return from an exception (R111). -/

namespace Sys2Proof.Machine

/-- `P[k]` (R10). -/
def State.param (s : State) (k : Fin 6) : Half := s.p[k]

/-- `P[k] <- v` (R11). -/
def State.withParam (s : State) (k : Fin 6) (v : Half) : State := { s with p := s.p.set k.val v k.isLt }

/-- `RSENSE <- v; STAT.CALV <- 1` (43_housekeeping.md R90). -/
def State.calibrate (s : State) (v : Half) : State := { s with rsense := v, stat := statWithCalv s.stat true }

/-- `done_result(r, a)`: success of a computing command (R100). -/
def doneResult (r a : Word) (s : State) : State :=
  { s with res := r, aux := a, stat := statWithErr (statWithRv s.stat true) 0#3, errval := 0#32 }

/-- `done()`: success of a housekeeping command (R100). -/
def doneHousekeeping (s : State) : State := { s with stat := statWithErr s.stat 0#3, errval := 0#32 }

/-- `raise <Exception>(info)`: TAKING AN EXCEPTION, the whole of it (R101, R110). No pc or mode exists to save or change. -/
def raise (e : Cause) (info : Word) (s : State) : State :=
  { s with
    stat := statWithErr (statWithRv (statWithSe s.stat true) false) (statusCode e)
    errval := info
    res := 0#32
    aux := 0#32 }

/-- Go on if the check holds; else raise `e` with the value that failed it (R104, R108: the first failing check is reported). -/
def unlessRaise (ok : Bool) (e : Cause) (info : Word) (s : State) (goOn : State) : State :=
  if ok then goOn else raise e info s

/-- The quotient and remainder of `n` by `RSENSE` (40_conversion.md R61, R66, R67), or NotCalibrated while `STAT.CALV = 0`
(60_exceptions.md R106). -/
def divideByRsense (n : Int) (imm : Half) (s : State) : State :=
  unlessRaise (statCalv s.stat) .notCalibrated (zext32 imm) s
    (doneResult (enc32 (tdiv n (uval s.rsense))) (enc32 (trem n (uval s.rsense))) s)

end Sys2Proof.Machine
end

