-- ==== Sys2Proof/Machine/ConfigEncode.lean ====
section
/-! DEFINITION. The pack-configuration encoder of spec/41_config_encode.md: PCFG. -/

namespace Sys2Proof.Machine

/-- PCFG (R71) for given masks: six checks in the order written, the first that fails is reported (R108), then the code. -/
def encodeConfig (m : Config.Masks) (s : State) : State :=
  unlessRaise (cellsOk (s.param 0)) .invalidConfigurationValue (zext32 (s.param 0)) s <|
  unlessRaise (thermsOk (s.param 1)) .invalidConfigurationValue (zext32 (s.param 1)) s <|
  unlessRaise (fitsMask (s.param 2) m.thermistorType) .invalidConfigurationValue (zext32 (s.param 2)) s <|
  unlessRaise (fitsMask (s.param 3) m.chargePumpVoltage) .invalidConfigurationValue (zext32 (s.param 3)) s <|
  unlessRaise (fitsMask (s.param 4) m.regulatorMode) .invalidConfigurationValue (zext32 (s.param 4)) s <|
  unlessRaise (fitsMask (s.param 5) m.updateCadence) .invalidConfigurationValue (zext32 (s.param 5)) s <|
  doneResult (zext32 (configCode (s.param 0) (s.param 1) (s.param 2) (s.param 3) (s.param 4) (s.param 5))) 0#32 s

/-- PCFG (R71) with the masks of this block, which R4 leaves open (log 2). -/
def execPcfg (s : State) : Host.Outcome State Fault Refusal := .next (encodeConfig Config.masks s)

end Sys2Proof.Machine
end

