-- ==== Sys2Proof/Machine/Conversion.lean ====
section
/-! DEFINITION. The conversion commands of spec/40_conversion.md: the seven rows of the source's table in its order, and ETEMP. -/

namespace Sys2Proof.Machine

/-- CVOLT (R63): raw voltage, unsigned, times 625. -/
def execCvolt (imm : Half) (s : State) : Host.Outcome State Fault Refusal :=
  .next (doneResult (enc32 (uval imm * Config.kVolt)) 0#32 s)

/-- CPCT (R64): raw percentage, not clipped. -/
def execCpct (imm : Half) (s : State) : Host.Outcome State Fault Refusal :=
  .next (doneResult (zext32 imm) 0#32 s)

/-- CTEMP (R65): raw temperature, signed. -/
def execCtemp (imm : Half) (s : State) : Host.Outcome State Fault Refusal :=
  .next (doneResult (sext32 imm) 0#32 s)

/-- CCAP (R66): raw capacity, unsigned, times 5000 over `RSENSE`. -/
def execCcap (imm : Half) (s : State) : Host.Outcome State Fault Refusal :=
  .next (divideByRsense (uval imm * Config.kCap) imm s)

/-- CCUR (R67): raw current, signed, times 15625 over `RSENSE`. -/
def execCcur (imm : Half) (s : State) : Host.Outcome State Fault Refusal :=
  .next (divideByRsense (sval imm * Config.kCur) imm s)

/-- CTIME (R68): raw time, unsigned, times 45. -/
def execCtime (imm : Half) (s : State) : Host.Outcome State Fault Refusal :=
  .next (doneResult (enc32 (uval imm * Config.kTime)) 0#32 s)

/-- CVTHB (R69): one threshold byte to millivolts; the upper byte of `imm` must be zero. -/
def execCvthb (imm : Half) (s : State) : Host.Outcome State Fault Refusal :=
  .next (unlessRaise (hiByte imm == 0#8) .invalidConfigurationValue (zext32 imm) s
    (doneResult (enc32 (byteMv (loByte imm))) 0#32 s))

/-- ETEMP (R70): 1/256 degrees to the raw register value, the identity on 16 bits. -/
def execEtemp (imm : Half) (s : State) : Host.Outcome State Fault Refusal :=
  .next (doneResult (zext32 imm) 0#32 s)

end Sys2Proof.Machine
end

