-- ==== Sys2Proof/Syntax.lean ====
section
/-! DEFINITION. The 20 commands of spec/30_encoding.md section 3, one constructor per row of spec/opcode_table.json, each with the
operand fields its format gives it (R45 to R49); and the names under which the decoder rejects a word. -/

namespace Sys2Proof

/-- A command. `imm` is `cmd[15:0]` as it stands (R49); `k` is `cmd[18:16]` (R47). -/
inductive Instr where
  | ldrs (imm : Half)
  | ldp (k : BitVec 3) (imm : Half)
  | clre
  | cvolt (imm : Half)
  | cpct (imm : Half)
  | ctemp (imm : Half)
  | ccap (imm : Half)
  | ccur (imm : Half)
  | ctime (imm : Half)
  | cvthb (imm : Half)
  | etemp (imm : Half)
  | pcfg
  | vvth (imm : Half)
  | evthb (imm : Half)
  | evth
  | pack
  | packs
  | unpk (imm : Half)
  | unpks (imm : Half)
  | dvth (imm : Half)
  deriving DecidableEq, Repr

/-- Why a word is illegal: the four cases (a) to (d) of R50, under names of the model's own (log 10). The block itself reports
only IllegalCommand (R105). -/
inductive DecodeError where
  /-- R50 (a): `opc` is none of the 20 opcodes. -/
  | unknownOpcode
  /-- R50 (b): a format I command whose `sel` is not zero. -/
  | reservedSelector
  /-- R50 (c): a format N command whose `cmd[23:0]` is not zero. -/
  | reservedOperand
  /-- R50 (d): LDP with `cmd[23:19]` not zero or `k` equal to 6 or 7. -/
  | badParameter
  deriving DecidableEq, Repr

end Sys2Proof
end

