-- ==== Sys2Proof/WellFormed.lean ====
section
/-! DEFINITION. Which commands have an encoding the block accepts: spec/30_encoding.md R47 and R50 leave one condition on operands,
the parameter number of LDP. Every 16-bit immediate is well formed (R49). -/

namespace Sys2Proof

/-- R47, R50: the parameter number of LDP is 0 to 5; no other command has a condition. -/
def Instr.wellFormed : Instr → Bool
  | .ldp k _ => decide (k.toNat ≤ 5)
  | .ldrs _ | .clre => true
  | .cvolt _ | .cpct _ | .ctemp _ | .ccap _ | .ccur _ | .ctime _ | .cvthb _ | .etemp _ => true
  | .pcfg => true
  | .vvth _ | .evthb _ | .evth | .pack | .packs | .unpk _ | .unpks _ | .dvth _ => true

end Sys2Proof
end

