-- ==== Sys2Proof/Decode.lean ====
section
/-! DEFINITION. The decoder of spec/30_encoding.md, total on all 2^32 words (R51), the encoder written from the same formats (R46,
R47, R48, R53), and the opcode map as data (section 3) by which R50 says which words are legal. -/

namespace Sys2Proof

/-- `opc = cmd[31:24]` (R45). -/
def cmdOpc (w : Word) : BitVec 8 := w.extractLsb' 24 8

/-- `sel = cmd[23:16]` (R45). -/
def cmdSel (w : Word) : BitVec 8 := w.extractLsb' 16 8

/-- `imm = cmd[15:0]` (R45). -/
def cmdImm (w : Word) : Half := w.extractLsb' 0 16

/-- `cmd[23:19]`, the bits format P reserves (R47). -/
def cmdReservedP (w : Word) : BitVec 5 := w.extractLsb' 19 5

/-- `cmd[18:16]`, the parameter number of format P (R47). -/
def cmdParam (w : Word) : BitVec 3 := w.extractLsb' 16 3

/-- Format I (R46): `sel` is zero and `imm` is the operand. -/
def formatI (w : Word) (command : Half → Instr) : Except DecodeError Instr :=
  if cmdSel w = 0#8 then .ok (command (cmdImm w)) else .error .reservedSelector

/-- Format P (R47): `cmd[23:19]` is zero and `k` is 0 to 5. -/
def formatP (w : Word) (command : BitVec 3 → Half → Instr) : Except DecodeError Instr :=
  if cmdReservedP w = 0#5 ∧ (cmdParam w).toNat ≤ 5 then .ok (command (cmdParam w) (cmdImm w)) else .error .badParameter

/-- Format N (R48): `cmd[23:0]` is zero. -/
def formatN (w : Word) (command : Instr) : Except DecodeError Instr :=
  if cmdSel w = 0#8 ∧ cmdImm w = 0#16 then .ok command else .error .reservedOperand

/-- Decode one command word (R50, R51): it reads no state. -/
def decode (w : Word) : Except DecodeError Instr :=
  match (cmdOpc w).toNat with
  | 0x01 => formatI w .ldrs
  | 0x02 => formatP w .ldp
  | 0x03 => formatN w .clre
  | 0x10 => formatI w .cvolt
  | 0x11 => formatI w .cpct
  | 0x12 => formatI w .ctemp
  | 0x13 => formatI w .ccap
  | 0x14 => formatI w .ccur
  | 0x15 => formatI w .ctime
  | 0x16 => formatI w .cvthb
  | 0x17 => formatI w .etemp
  | 0x20 => formatN w .pcfg
  | 0x30 => formatI w .vvth
  | 0x31 => formatI w .evthb
  | 0x32 => formatN w .evth
  | 0x33 => formatN w .pack
  | 0x34 => formatN w .packs
  | 0x35 => formatI w .unpk
  | 0x36 => formatI w .unpks
  | 0x37 => formatI w .dvth
  | _ => .error .unknownOpcode

/-- `cat(opc, sel, imm)` (R45, R53). -/
def commandWord (opc sel : BitVec 8) (imm : Half) : Word := opc ++ sel ++ imm

/-- The word of a command (R46, R47, R48, R53). For an ill-formed LDP it is the illegal word with `k` 6 or 7. -/
def encode : Instr → Word
  | .ldrs imm => commandWord 0x01#8 0#8 imm
  | .ldp k imm => commandWord 0x02#8 (0#5 ++ k) imm
  | .clre => commandWord 0x03#8 0#8 0#16
  | .cvolt imm => commandWord 0x10#8 0#8 imm
  | .cpct imm => commandWord 0x11#8 0#8 imm
  | .ctemp imm => commandWord 0x12#8 0#8 imm
  | .ccap imm => commandWord 0x13#8 0#8 imm
  | .ccur imm => commandWord 0x14#8 0#8 imm
  | .ctime imm => commandWord 0x15#8 0#8 imm
  | .cvthb imm => commandWord 0x16#8 0#8 imm
  | .etemp imm => commandWord 0x17#8 0#8 imm
  | .pcfg => commandWord 0x20#8 0#8 0#16
  | .vvth imm => commandWord 0x30#8 0#8 imm
  | .evthb imm => commandWord 0x31#8 0#8 imm
  | .evth => commandWord 0x32#8 0#8 0#16
  | .pack => commandWord 0x33#8 0#8 0#16
  | .packs => commandWord 0x34#8 0#8 0#16
  | .unpk imm => commandWord 0x35#8 0#8 imm
  | .unpks imm => commandWord 0x36#8 0#8 imm
  | .dvth imm => commandWord 0x37#8 0#8 imm

/-- A row of the opcode map of 30_encoding.md section 3. -/
structure OpcodeRow where
  mnemonic : String
  pattern : Word
  mask : Word
  deriving DecidableEq, Repr

/-- The opcode map of 30_encoding.md section 3, all 20 rows in its order, `pattern` being the column `match`. -/
def opcodeMap : List OpcodeRow :=
  [⟨"LDRS", 0x01000000#32, 0xFFFF0000#32⟩, ⟨"LDP", 0x02000000#32, 0xFFF80000#32⟩, ⟨"CLRE", 0x03000000#32, 0xFFFFFFFF#32⟩,
   ⟨"CVOLT", 0x10000000#32, 0xFFFF0000#32⟩, ⟨"CPCT", 0x11000000#32, 0xFFFF0000#32⟩, ⟨"CTEMP", 0x12000000#32, 0xFFFF0000#32⟩,
   ⟨"CCAP", 0x13000000#32, 0xFFFF0000#32⟩, ⟨"CCUR", 0x14000000#32, 0xFFFF0000#32⟩, ⟨"CTIME", 0x15000000#32, 0xFFFF0000#32⟩,
   ⟨"CVTHB", 0x16000000#32, 0xFFFF0000#32⟩, ⟨"ETEMP", 0x17000000#32, 0xFFFF0000#32⟩, ⟨"PCFG", 0x20000000#32, 0xFFFFFFFF#32⟩,
   ⟨"VVTH", 0x30000000#32, 0xFFFF0000#32⟩, ⟨"EVTHB", 0x31000000#32, 0xFFFF0000#32⟩, ⟨"EVTH", 0x32000000#32, 0xFFFFFFFF#32⟩,
   ⟨"PACK", 0x33000000#32, 0xFFFFFFFF#32⟩, ⟨"PACKS", 0x34000000#32, 0xFFFFFFFF#32⟩, ⟨"UNPK", 0x35000000#32, 0xFFFF0000#32⟩,
   ⟨"UNPKS", 0x36000000#32, 0xFFFF0000#32⟩, ⟨"DVTH", 0x37000000#32, 0xFFFF0000#32⟩]

/-- `(cmd & mask) == match`, and for LDP also `u(cmd[18:16]) <= 5` (R50). -/
def OpcodeRow.accepts (r : OpcodeRow) (w : Word) : Bool :=
  (w &&& r.mask == r.pattern) && (r.mnemonic != "LDP" || decide ((cmdParam w).toNat ≤ 5))

/-- R50: a word is legal if and only if it matches a row of the opcode map. -/
def legalWord (w : Word) : Bool := opcodeMap.any fun r => r.accepts w

/-- The mnemonic of a command, as the opcode map has it. -/
def mnemonicOf : Instr → String
  | .ldrs _ => "LDRS" | .ldp _ _ => "LDP" | .clre => "CLRE"
  | .cvolt _ => "CVOLT" | .cpct _ => "CPCT" | .ctemp _ => "CTEMP" | .ccap _ => "CCAP"
  | .ccur _ => "CCUR" | .ctime _ => "CTIME" | .cvthb _ => "CVTHB" | .etemp _ => "ETEMP"
  | .pcfg => "PCFG"
  | .vvth _ => "VVTH" | .evthb _ => "EVTHB" | .evth => "EVTH" | .pack => "PACK" | .packs => "PACKS"
  | .unpk _ => "UNPK" | .unpks _ => "UNPKS" | .dvth _ => "DVTH"

/-- The command word whose low `nbits` bits are those of `w` and whose other bits are 0. The block takes the word whole, bit 0
least significant (R35, R45): there are no bytes to lay out (log 11). -/
def tableWord (nbits w : Nat) : Word := BitVec.ofNat 32 (w % 2 ^ nbits)

/-- The command the decoder reads from an instruction whose bits are `w`, bit 0 least significant; none where it rejects. -/
def decodeTableWord (nbits w : Nat) : Option Instr :=
  match decode (tableWord nbits w) with
  | .ok i => some i
  | .error _ => none

end Sys2Proof
end

