-- ==== Sys2Proof/Machine/Housekeeping.lean ====
section
/-! DEFINITION. The housekeeping commands of spec/43_housekeeping.md: LDRS, LDP, CLRE. -/

namespace Sys2Proof.Machine

/-- LDRS (R90): load the sense-resistor calibration, once; CalLocked comes before the check of the value (R108). -/
def execLdrs (imm : Half) (s : State) : Host.Outcome State Fault Refusal :=
  .next (unlessRaise (!statCalv s.stat) .calLocked (zext32 imm) s
    (unlessRaise (imm != 0#16) .invalidConfigurationValue 0#32 s
      (doneHousekeeping (s.calibrate imm))))

/-- LDP (R91): load a parameter register, any value. With `k` 6 or 7 the word of this term is an illegal command (R50 d) and does
what R105 says; the decoder never gives that term (log 8). -/
def execLdp (k : BitVec 3) (imm : Half) (s : State) : Host.Outcome State Fault Refusal :=
  match paramIndex k with
  | some j => .next (doneHousekeeping (s.withParam j imm))
  | none => .next (raise .illegalCommand (encode (.ldp k imm)) s)

/-- CLRE (R92): clear the sticky error flag. -/
def execClre (s : State) : Host.Outcome State Fault Refusal :=
  .next (doneHousekeeping { s with stat := statWithSe s.stat false })

end Sys2Proof.Machine
end

