-- ==== Sys2Proof/Machine/Threshold.lean ====
section
/-! DEFINITION. The alert-threshold commands of spec/42_threshold.md: VVTH, EVTHB, EVTH, PACK, PACKS, UNPK, UNPKS, DVTH. None
compares the minimum with the maximum (R85). -/

namespace Sys2Proof.Machine

/-- Check the minimum `P[0]`, then the maximum `P[1]` (R108), then answer the pair built from them. `widen` is how a failing
operand is widened to 32 bits (10_state.md R17). -/
def encodePair (ok : Half → Bool) (widen : Half → Word) (toByte : Half → Byte) (s : State) : State :=
  unlessRaise (ok (s.param 0)) .invalidConfigurationValue (widen (s.param 0)) s <|
  unlessRaise (ok (s.param 1)) .invalidConfigurationValue (widen (s.param 1)) s <|
  doneResult (zext32 (pairWord (toByte (s.param 1)) (toByte (s.param 0)))) 0#32 s

/-- VVTH (R76): is a threshold valid; an invalid one is an answer, not a failure. -/
def execVvth (imm : Half) (s : State) : Host.Outcome State Fault Refusal :=
  .next (doneResult (if validVth (sval imm) then 1#32 else 0#32) 0#32 s)

/-- EVTHB (R77): one threshold in millivolts to its byte. -/
def execEvthb (imm : Half) (s : State) : Host.Outcome State Fault Refusal :=
  .next (unlessRaise (validVth (sval imm)) .invalidConfigurationValue (sext32 imm) s
    (doneResult (enc32 (vthByte (sval imm))) 0#32 s))

/-- EVTH (R78): a threshold pair in millivolts to its register value. -/
def execEvth (s : State) : Host.Outcome State Fault Refusal :=
  .next (encodePair (fun v => validVth (sval v)) sext32 (fun v => enc8 (vthByte (sval v))) s)

/-- PACK (R79): two unsigned bytes to a register value. -/
def execPack (s : State) : Host.Outcome State Fault Refusal :=
  .next (encodePair fitsUnsignedByte zext32 loByte s)

/-- PACKS (R80): two signed bytes to a register value. -/
def execPacks (s : State) : Host.Outcome State Fault Refusal :=
  .next (encodePair fitsSignedByte sext32 loByte s)

/-- UNPK (R81): a register value to its two unsigned bytes, the maximum in `RES`, the minimum in `AUX`. -/
def execUnpk (imm : Half) (s : State) : Host.Outcome State Fault Refusal :=
  .next (doneResult (zext32 (hiByte imm)) (zext32 (loByte imm)) s)

/-- UNPKS (R82): a register value to its two signed bytes. -/
def execUnpks (imm : Half) (s : State) : Host.Outcome State Fault Refusal :=
  .next (doneResult (sext32 (hiByte imm)) (sext32 (loByte imm)) s)

/-- DVTH (R83): a register value to its two voltages in millivolts. -/
def execDvth (imm : Half) (s : State) : Host.Outcome State Fault Refusal :=
  .next (doneResult (enc32 (byteMv (hiByte imm))) (enc32 (byteMv (loByte imm))) s)

end Sys2Proof.Machine
end

