-- ==== Sys2Proof/Machine/Dispatch.lean ====
section
/-! DEFINITION. One arm per command of spec/30_encoding.md section 3, in the table's order. -/

namespace Sys2Proof.Machine

/-- The meaning of a command: the state after its completion, from the state before it (spec/10_state.md R21). -/
def exec (i : Instr) (s : State) : Host.Outcome State Fault Refusal :=
  match i with
  | .ldrs imm => Sys2Proof.Machine.execLdrs imm s
  | .ldp k imm => Sys2Proof.Machine.execLdp k imm s
  | .clre => Sys2Proof.Machine.execClre s
  | .cvolt imm => Sys2Proof.Machine.execCvolt imm s
  | .cpct imm => Sys2Proof.Machine.execCpct imm s
  | .ctemp imm => Sys2Proof.Machine.execCtemp imm s
  | .ccap imm => Sys2Proof.Machine.execCcap imm s
  | .ccur imm => Sys2Proof.Machine.execCcur imm s
  | .ctime imm => Sys2Proof.Machine.execCtime imm s
  | .cvthb imm => Sys2Proof.Machine.execCvthb imm s
  | .etemp imm => Sys2Proof.Machine.execEtemp imm s
  | .pcfg => Sys2Proof.Machine.execPcfg s
  | .vvth imm => Sys2Proof.Machine.execVvth imm s
  | .evthb imm => Sys2Proof.Machine.execEvthb imm s
  | .evth => Sys2Proof.Machine.execEvth s
  | .pack => Sys2Proof.Machine.execPack s
  | .packs => Sys2Proof.Machine.execPacks s
  | .unpk imm => Sys2Proof.Machine.execUnpk imm s
  | .unpks imm => Sys2Proof.Machine.execUnpks imm s
  | .dvth imm => Sys2Proof.Machine.execDvth imm s

end Sys2Proof.Machine
end

