-- ==== Sys2Proof/Machine/Command.lean ====
section
/-! DEFINITION. The transaction-level model that spec/10_state.md R21 and spec/70_reset_and_hazards.md R121, R131 describe: one atomic
step per command word, and reset as a second kind of step. -/

namespace Sys2Proof.Machine

/-- Execute one command word (R21): decode comes first (60_exceptions.md R108), and an illegal word raises IllegalCommand with the
whole word in `ERRVAL` (R105). -/
def runCommand (w : Word) (s : State) : Host.Outcome State Fault Refusal :=
  match decode w with
  | .ok i => exec i s
  | .error _ => .next (raise .illegalCommand w s)

/-- A host's program (R20): command words one after the other. -/
def runCommands : List Word → State → Host.Outcome State Fault Refusal
  | [], s => .next s
  | w :: ws, s =>
    match runCommand w s with
    | .next t => runCommands ws t
    | .fault f => .fault f
    | .refused r => .refused r

/-- Reset (R120, R121): the block and its port take the reset state; what the host will drive next is the host's. -/
def resetBlock (s : State) : State := { State.reset with schedule := s.schedule }

end Sys2Proof.Machine
end

