-- ==== Sys2Proof/Machine/Port.lean ====
section
/-! DEFINITION. The ports and the handshake (spec/10_state.md R18, R19) and reset at the clock edge (spec/70_reset_and_hazards.md R120,
R121): what one rising edge of `clk` does. -/

namespace Sys2Proof.Machine

/-- The outputs of the block (R18). -/
structure Outputs where
  cmdReady : Bool
  rspValid : Bool
  resO : Word
  auxO : Word
  statO : Half
  errvalO : Word
  deriving DecidableEq, Repr

/-- `cmd_ready`: 0 from acceptance until completion (R19), else 1 (R120; log 6 for `rst = 1`). -/
def State.cmdReady (s : State) : Bool := s.inFlight.isNone

/-- What the host sees; sampling changes nothing (R18). -/
def State.outputs (s : State) : Outputs :=
  { cmdReady := s.cmdReady, rspValid := s.rspValid, resO := s.res, auxO := s.aux, statO := s.stat, errvalO := s.errval }

/-- A host that drives nothing: no reset, no command (DESIGN CHOICE, log 4). -/
def idleInput : EdgeInput := { rst := false, cmdValid := false, cmdWord := 0#32, extraEdges := 0 }

/-- What the host drives at the coming edge. -/
def State.input (s : State) : EdgeInput := s.schedule.headD idleInput

/-- The coming edge is used up; `rsp_valid` lasts one cycle (R19). -/
def State.tick (s : State) : State := { s with rspValid := false, schedule := s.schedule.tail }

/-- One rising edge of `clk`. Reset dominates and abandons a command in flight (R120, R121); a ready port accepts a valid command
(R19); a command in flight waits, and at its last edge all its writes take effect together with `rsp_valid` (R19, R36). At that
last edge `cmd_ready` is still 0, so no other command is accepted (log 7). -/
def clockEdge (s : State) : Host.Outcome State Fault Refusal :=
  if s.input.rst then .next (resetBlock s.tick)
  else
    match s.inFlight with
    | none =>
      if s.input.cmdValid then .next { s.tick with inFlight := some ⟨s.input.cmdWord, s.input.extraEdges⟩ }
      else .next s.tick
    | some c =>
      match c.edgesLeft with
      | 0 => runCommand c.word { s.tick with inFlight := none, rspValid := true }
      | n + 1 => .next { s.tick with inFlight := some ⟨c.word, n⟩ }

/-- The state in which the coming edge completes the command word `w`: it was accepted before, and the host does not reset. -/
def State.withCommandDue (s : State) (w : Word) : State :=
  { s with
    inFlight := some ⟨w, 0⟩
    schedule :=
      match s.schedule with
      | [] => []
      | e :: es => { e with rst := false } :: es }

end Sys2Proof.Machine
end

