-- ==== Sys2Proof/Machine/Step.lean ====
section
/-! DEFINITION. One step of the machine: one rising edge of `clk` (log 5); and where a step finds the command it runs. -/

namespace Sys2Proof.Machine

/-- One step: one rising edge of `clk`. -/
def step (s : State) : Host.Outcome State Fault Refusal := clockEdge s

/-- `s` with the given command in flight and due, so that the next step runs exactly it (log 4, log 5). -/
def State.withFetchWord (s : State) (nbits w : Nat) : State := s.withCommandDue (tableWord nbits w)

end Sys2Proof.Machine
end

