-- ==== Sys2Proof/Machine/Assembler.lean ====
section
/-! DEFINITION. The assembler's line syntax and the pseudo-instructions of spec/30_encoding.md R53, R54, R55. They are the host's, not
the block's: a line stands for the finite list of commands the host issues. What R53 leaves open is in log 15. -/

namespace Sys2Proof.Machine

/-- `SETCFG c, t, e2, e3, e4, e5` (R54): six loads, then PCFG. -/
def setcfg (c t e2 e3 e4 e5 : Half) : List Instr :=
  [.ldp 0#3 c, .ldp 1#3 t, .ldp 2#3 e2, .ldp 3#3 e3, .ldp 4#3 e4, .ldp 5#3 e5, .pcfg]

/-- `SETVTH min, max`, millivolts (R55). -/
def setvth (min max : Half) : List Instr := [.ldp 0#3 min, .ldp 1#3 max, .evth]

/-- `SETTHB min, max`, unsigned bytes (R55). -/
def setthb (min max : Half) : List Instr := [.ldp 0#3 min, .ldp 1#3 max, .pack]

/-- `SETTHS min, max`, signed bytes (R55). -/
def setths (min max : Half) : List Instr := [.ldp 0#3 min, .ldp 1#3 max, .packs]

/-- The 16 bits an operand value is stored as (R53): -32768 to 65535, a negative one as its two's complement. -/
def operandBits (v : Int) : Option Half :=
  if -32768 ≤ v ∧ v ≤ 65535 then some (BitVec.ofInt 16 v) else none

/-- The hexadecimal digits as R53 writes them (`0xFFEC`), each at the place of its value; the decimal digits are the first ten. -/
def hexDigits : List Char := "0123456789ABCDEF".toList

/-- The letters among them in lower case, which R53 does not mention (log 15). -/
def lowerHexLetters : List Char := "abcdef".toList

/-- The value of a digit, decimal or hexadecimal: its place among the digits. -/
def digitValue (c : Char) : Option Nat :=
  match hexDigits.idxOf? c with
  | some place => some place
  | none => (lowerHexLetters.idxOf? c).map (10 + ·)

/-- The number that digits spell in a base, going on from `acc`. -/
def readDigits (base acc : Nat) : List Char → Option Nat
  | [] => some acc
  | c :: cs =>
    match digitValue c with
    | some d => if d < base then readDigits base (acc * base + d) cs else none
    | none => none

/-- A number of at least one digit. -/
def readNumber (base : Nat) : List Char → Option Nat
  | [] => none
  | c :: cs => readDigits base 0 (c :: cs)

/-- An operand value (R53): a hexadecimal `0x0000` to `0xFFFF`, or a decimal integer. -/
def readValue : List Char → Option Half
  | '0' :: 'x' :: ds => (readNumber 16 ds).bind fun n => operandBits n
  | '-' :: ds => (readNumber 10 ds).bind fun n => operandBits (-(n : Int))
  | ds => (readNumber 10 ds).bind fun n => operandBits n

/-- `Pk`, one digit 0 to 5 (R53). -/
def readParam : List Char → Option (BitVec 3)
  | ['P', d] => (digitValue d).bind fun n => if n ≤ 5 then some (BitVec.ofNat 3 n) else none
  | _ => none

/-- A space or a tab. -/
def isBlank (c : Char) : Bool := c == ' ' || c == '\t'

/-- Without the blanks at both ends. -/
def trimBlanks (l : List Char) : List Char := ((l.dropWhile isBlank).reverse.dropWhile isBlank).reverse

/-- The pieces between commas. -/
def splitCommas : List Char → List (List Char)
  | [] => [[]]
  | c :: cs =>
    if c == ',' then [] :: splitCommas cs
    else
      match splitCommas cs with
      | [] => [[c]]
      | f :: fs => (c :: f) :: fs

/-- The format I mnemonics (R46). -/
def formatIMnemonics : List (List Char × (Half → Instr)) :=
  [("LDRS".toList, .ldrs), ("CVOLT".toList, .cvolt), ("CPCT".toList, .cpct), ("CTEMP".toList, .ctemp), ("CCAP".toList, .ccap),
   ("CCUR".toList, .ccur), ("CTIME".toList, .ctime), ("CVTHB".toList, .cvthb), ("ETEMP".toList, .etemp), ("VVTH".toList, .vvth),
   ("EVTHB".toList, .evthb), ("UNPK".toList, .unpk), ("UNPKS".toList, .unpks), ("DVTH".toList, .dvth)]

/-- The format N mnemonics (R48). -/
def formatNMnemonics : List (List Char × Instr) :=
  [("CLRE".toList, .clre), ("PCFG".toList, .pcfg), ("EVTH".toList, .evth), ("PACK".toList, .pack), ("PACKS".toList, .packs)]

/-- The two-operand pseudo-instructions (R55). -/
def pairMnemonics : List (List Char × (Half → Half → List Instr)) :=
  [("SETVTH".toList, setvth), ("SETTHB".toList, setthb), ("SETTHS".toList, setths)]

/-- A mnemonic and its operands (R53 to R55), or none where they are no line of the assembler. -/
def assembleCommand (mnemonic : List Char) : List (List Char) → Option (List Instr)
  | [] => (formatNMnemonics.lookup mnemonic).map fun i => [i]
  | [v] => (formatIMnemonics.lookup mnemonic).bind fun command => (readValue v).map fun imm => [command imm]
  | [a, b] =>
    if mnemonic = "LDP".toList then (readParam a).bind fun k => (readValue b).map fun imm => [Instr.ldp k imm]
    else (pairMnemonics.lookup mnemonic).bind fun expand => (readValue a).bind fun lo => (readValue b).map fun hi => expand lo hi
  | [c, t, e2, e3, e4, e5] =>
    if mnemonic = "SETCFG".toList then
      (readValue c).bind fun c => (readValue t).bind fun t => (readValue e2).bind fun e2 => (readValue e3).bind fun e3 =>
        (readValue e4).bind fun e4 => (readValue e5).map fun e5 => setcfg c t e2 e3 e4 e5
    else none
  | _ => none

/-- One line (R53): a comment runs from `;` to the end; a line of nothing else stands for no command. -/
def assembleLine (line : List Char) : Option (List Instr) :=
  let text := trimBlanks (line.takeWhile (· != ';'))
  let operands := trimBlanks (text.dropWhile fun c => !isBlank c)
  if text = [] then some []
  else assembleCommand (text.takeWhile fun c => !isBlank c) (if operands = [] then [] else (splitCommas operands).map trimBlanks)

/-- A list of lines to the command words the host issues, in order (R20, R53). -/
def assembleLines : List (List Char) → Option (List Word)
  | [] => some []
  | l :: ls => (assembleLine l).bind fun is => (assembleLines ls).map fun ws => is.map encode ++ ws

end Sys2Proof.Machine
end

