-- ==== Sys2Proof/Machine/Units.lean ====
section
/-! DEFINITION. What the integer in a result register means: the units of spec/40_conversion.md R60, the signedness of
spec/10_state.md R14 and R15, and the source's formulas that the integer times its unit equals (spec/00_scope.md R5). -/

namespace Sys2Proof.Machine

/-- The integer `RES` holds after a command: signed for CTEMP, CCUR and UNPKS, unsigned for every other (R14). -/
def resInt (i : Instr) (s : State) : Int :=
  match i with
  | .ctemp _ | .ccur _ | .unpks _ => sval s.res
  | .ldrs _ | .ldp _ _ | .clre | .cvolt _ | .cpct _ | .ccap _ | .ctime _ | .cvthb _ | .etemp _ => uval s.res
  | .pcfg | .vvth _ | .evthb _ | .evth | .pack | .packs | .unpk _ | .dvth _ => uval s.res

/-- The integer `AUX` holds after a command: signed for CCUR (R15) and UNPKS (R82), unsigned for every other. -/
def auxInt (i : Instr) (s : State) : Int :=
  match i with
  | .ccur _ | .unpks _ => sval s.aux
  | .ldrs _ | .ldp _ _ | .clre | .cvolt _ | .cpct _ | .ctemp _ | .ccap _ | .ctime _ | .cvthb _ | .etemp _ => uval s.aux
  | .pcfg | .vvth _ | .evthb _ | .evth | .pack | .packs | .unpk _ | .dvth _ => uval s.aux

/-- The physical value of one count of `RES` (R60, R129): volts, percent, degrees Celsius, mAh, mA, seconds, volts; none for a
command whose result is a register pattern, a byte or an answer. For DVTH `RES` is the maximum of the pair (42_threshold.md R83). -/
def resultUnit : Instr → Option Rat
  | .cvolt _ => some (1 / 8000000)
  | .cpct _ | .ctemp _ => some (1 / 256)
  | .ccap _ => some (1 / 1000)
  | .ccur _ => some (1 / 10000)
  | .ctime _ => some (1 / 8)
  | .cvthb _ | .dvth _ => some (1 / 1000)
  | .ldrs _ | .ldp _ _ | .clre | .etemp _ | .pcfg | .vvth _ | .evthb _ | .evth | .pack | .packs | .unpk _ | .unpks _ => none

/-- The physical value of one count of `AUX` where `AUX` is a result of its own: for DVTH, whose minimum it holds in millivolts
(42_threshold.md R83), volts. For CCAP and CCUR `AUX` is the remainder, a part of the one result (R60, R61; `resultCount`); for the
others it is a byte or zero (R15). -/
def auxUnit : Instr → Option Rat
  | .dvth _ => some (1 / 1000)
  | .ldrs _ | .ldp _ _ | .clre | .cvolt _ | .cpct _ | .ctemp _ | .ccap _ | .ccur _ | .ctime _ | .cvthb _ | .etemp _ => none
  | .pcfg | .vvth _ | .evthb _ | .evth | .pack | .packs | .unpk _ | .unpks _ => none

/-- The count that `RES` stands for: for CCAP and CCUR with the remainder over `RSENSE` added, so that nothing is lost (R5, R60). -/
def resultCount (i : Instr) (s : State) : Rat :=
  match i with
  | .ccap _ | .ccur _ => (resInt i s : Rat) + (auxInt i s : Rat) / (uval s.rsense : Rat)
  | .ldrs _ | .ldp _ _ | .clre | .cvolt _ | .cpct _ | .ctemp _ | .ctime _ | .cvthb _ | .etemp _ => (resInt i s : Rat)
  | .pcfg | .vvth _ | .evthb _ | .evth | .pack | .packs | .unpk _ | .unpks _ | .dvth _ => (resInt i s : Rat)

/-- The physical value of the result in `RES` of a command, in the state after it (R5). -/
def physicalValue (i : Instr) (s : State) : Option Rat := (resultUnit i).map (resultCount i s * ·)

/-- The physical value of the result in `AUX` of a command, in the state after it (R5). -/
def auxPhysicalValue (i : Instr) (s : State) : Option Rat := (auxUnit i).map ((auxInt i s : Rat) * ·)

/-- The source's formula for one threshold byte, `byte × 0.02` volts (40_conversion.md, the table at its head). UNVERIFIED literal
(log 14). -/
def thresholdFormula (b : Byte) : Rat := (uval b : Rat) * (2 / 100)

/-- The source's own formula for the quantity in `RES`, with its decimal constants as printed (40_conversion.md, the table at its
head); for DVTH, that of the maximum. UNVERIFIED literals (log 14). -/
def sourceFormula (i : Instr) (rsense : Half) : Option Rat :=
  match i with
  | .cvolt imm => some ((uval imm : Rat) * (78125 / 1000000) / 1000)
  | .cpct imm => some ((uval imm : Rat) / 256)
  | .ctemp imm => some ((sval imm : Rat) / 256)
  | .ccap imm => some ((uval imm : Rat) * 5 / (uval rsense : Rat))
  | .ccur imm => some ((sval imm : Rat) * (15625 / 10000) / (uval rsense : Rat))
  | .ctime imm => some ((uval imm : Rat) * (5625 / 1000))
  | .cvthb imm => some (thresholdFormula (loByte imm))
  | .dvth imm => some (thresholdFormula (hiByte imm))
  | .ldrs _ | .ldp _ _ | .clre | .etemp _ | .pcfg | .vvth _ | .evthb _ | .evth | .pack | .packs | .unpk _ | .unpks _ => none

/-- The source's own formula for the quantity in `AUX`: for DVTH, that of the minimum. -/
def auxSourceFormula : Instr → Option Rat
  | .dvth imm => some (thresholdFormula (loByte imm))
  | .ldrs _ | .ldp _ _ | .clre | .cvolt _ | .cpct _ | .ctemp _ | .ccap _ | .ccur _ | .ctime _ | .cvthb _ | .etemp _ => none
  | .pcfg | .vvth _ | .evthb _ | .evth | .pack | .packs | .unpk _ | .unpks _ => none

end Sys2Proof.Machine
end

