-- ==== Sys2Proof/Safety.lean ====
section
/-! DEFINITION. The terms the statements are made in: what a success and a failure leave (spec/60_exceptions.md R100, R101), when a
command fails (R104 to R108), the invariant the rules put on every reachable state, the host's checks of
spec/70_reset_and_hazards.md R126 and spec/60_exceptions.md R113, and a run of several clock edges. -/

namespace Sys2Proof.Machine

/-- The port and the host's schedule are as they were: executing a command moves neither (spec/10_state.md R19). -/
structure PortKept (s t : State) : Prop where
  rspValid : t.rspValid = s.rspValid
  inFlight : t.inFlight = s.inFlight
  schedule : t.schedule = s.schedule

/-- R100, success of a computing command: `RES` and `AUX` as given, `ERR`, `ERRVAL`, `RV` written, and nothing else. The block has
no memory, so this is the whole frame. -/
structure ResultAfter (r a : Word) (s t : State) : Prop where
  res : t.res = r
  aux : t.aux = a
  errval : t.errval = 0#32
  err : statErr t.stat = 0#3
  rv : statRv t.stat = true
  se : statSe t.stat = statSe s.stat
  calv : statCalv t.stat = statCalv s.stat
  reserved : statReserved t.stat = statReserved s.stat
  p : t.p = s.p
  rsense : t.rsense = s.rsense
  port : PortKept s t

/-- R101, failure with a cause and a payload: exactly these writes and no others. -/
structure FailureAfter (e : Cause) (info : Word) (s t : State) : Prop where
  err : statErr t.stat = statusCode e
  errval : t.errval = info
  se : statSe t.stat = true
  rv : statRv t.stat = false
  res : t.res = 0#32
  aux : t.aux = 0#32
  calv : statCalv t.stat = statCalv s.stat
  reserved : statReserved t.stat = statReserved s.stat
  p : t.p = s.p
  rsense : t.rsense = s.rsense
  port : PortKept s t

/-- R100, what every success of a housekeeping command leaves: `ERR` and `ERRVAL` zero, and the last result untouched. -/
structure HousekeepingAfter (s t : State) : Prop where
  err : statErr t.stat = 0#3
  errval : t.errval = 0#32
  res : t.res = s.res
  aux : t.aux = s.aux
  rv : statRv t.stat = statRv s.stat
  reserved : statReserved t.stat = statReserved s.stat
  port : PortKept s t

/-- R126: `RES` and `AUX` are the result of the command just completed. -/
abbrev ResultUsable (s : State) : Prop := statRv s.stat = true ∧ statErr s.stat = 0#3

/-- R113: no failure is recorded since the last reset or CLRE. -/
abbrev NoFailureRecorded (s : State) : Prop := statSe s.stat = false

/-- What the rules say of `STAT`, `RSENSE` and the result registers together, in every reachable state of the block. -/
abbrev RegistersLegal (s : State) : Prop :=
  -- R16: the reserved bits read as zero; R102: codes 5, 6, 7 are never produced
  (statReserved s.stat = 0#10 ∧ (statErr s.stat).toNat ≤ 4) ∧
  -- R13: `RSENSE` is zero while `CALV = 0` and never zero while `CALV = 1`
  (statCalv s.stat = true ↔ s.rsense ≠ 0#16) ∧
  -- R16, R101: `RV = 1` only after success; while `RV = 0` the result registers hold zero (R23, R101)
  (statRv s.stat = true → statErr s.stat = 0#3) ∧
  (statRv s.stat = false → s.res = 0#32 ∧ s.aux = 0#32) ∧
  -- R17: `ERRVAL` is zero after success; R16: a failing command sets `SE`
  (statErr s.stat = 0#3 → s.errval = 0#32) ∧
  (statErr s.stat ≠ 0#3 → statSe s.stat = true) ∧
  -- R106, R107: NotCalibrated is reported while `CALV = 0`, CalLocked while `CALV = 1`
  (statErr s.stat = statusCode .notCalibrated → statCalv s.stat = false) ∧
  (statErr s.stat = statusCode .calLocked → statCalv s.stat = true)

/-- The invariant of the whole machine: legal registers, and `rsp_valid` is 1 only when the port is ready again (R19). -/
abbrev Inv (s : State) : Prop := RegistersLegal s ∧ (s.rspValid = true → s.inFlight = none)

/-- A voltage threshold as R75 words it. -/
abbrev IsThreshold (v : Int) : Prop := 0 ≤ v ∧ v ≤ 5100 ∧ v % 20 = 0

/-- R104: the table of the cases in which InvalidConfigurationValue is raised, with the payload of each, its rows in the order in
which R108 ranks the checks of one command. -/
def invalidInput (i : Instr) (s : State) : Option Word :=
  match i with
  | .pcfg =>
    if uval (s.param 0) < 2 ∨ 4 < uval (s.param 0) then some (zext32 (s.param 0))
    else if 4 < uval (s.param 1) then some (zext32 (s.param 1))
    else if s.param 2 &&& ~~~Config.masks.thermistorType ≠ 0#16 then some (zext32 (s.param 2))
    else if s.param 3 &&& ~~~Config.masks.chargePumpVoltage ≠ 0#16 then some (zext32 (s.param 3))
    else if s.param 4 &&& ~~~Config.masks.regulatorMode ≠ 0#16 then some (zext32 (s.param 4))
    else if s.param 5 &&& ~~~Config.masks.updateCadence ≠ 0#16 then some (zext32 (s.param 5))
    else none
  | .evthb imm => if ¬ IsThreshold (sval imm) then some (sext32 imm) else none
  | .evth =>
    if ¬ IsThreshold (sval (s.param 0)) then some (sext32 (s.param 0))
    else if ¬ IsThreshold (sval (s.param 1)) then some (sext32 (s.param 1))
    else none
  | .pack =>
    if 255 < uval (s.param 0) then some (zext32 (s.param 0))
    else if 255 < uval (s.param 1) then some (zext32 (s.param 1))
    else none
  | .packs =>
    if sval (s.param 0) < -128 ∨ 127 < sval (s.param 0) then some (sext32 (s.param 0))
    else if sval (s.param 1) < -128 ∨ 127 < sval (s.param 1) then some (sext32 (s.param 1))
    else none
  | .cvthb imm => if hiByte imm ≠ 0#8 then some (zext32 imm) else none
  | .ldrs imm => if imm = 0#16 then some 0#32 else none
  | .ldp _ _ | .clre => none
  | .cvolt _ | .cpct _ | .ctemp _ | .ccap _ | .ccur _ | .ctime _ | .etemp _ => none
  | .vvth _ | .unpk _ | .unpks _ | .dvth _ => none

/-- R106, R107: the state preconditions of LDRS, CCAP and CCUR, with the payload of each. -/
def unmetPrecondition (i : Instr) (s : State) : Option (Cause × Word) :=
  match i with
  | .ldrs imm => if statCalv s.stat = true then some (.calLocked, zext32 imm) else none
  | .ccap imm | .ccur imm => if statCalv s.stat = false then some (.notCalibrated, zext32 imm) else none
  | .ldp _ _ | .clre => none
  | .cvolt _ | .cpct _ | .ctemp _ | .ctime _ | .cvthb _ | .etemp _ | .pcfg => none
  | .vvth _ | .evthb _ | .evth | .pack | .packs | .unpk _ | .unpks _ | .dvth _ => none

/-- R108: the one exception a command word reports, if any: an illegal word first, then the state precondition, then the operands. -/
def reportedFailure (w : Word) (s : State) : Option (Cause × Word) :=
  match decode w with
  | .error _ => some (.illegalCommand, w)
  | .ok i =>
    match unmetPrecondition i s with
    | some f => some f
    | none => (invalidInput i s).map fun v => (.invalidConfigurationValue, v)

/-- R113: whether a failure is on record after these command words, `before` saying whether one was before them: a failing
command puts one on record, a successful CLRE takes it off. -/
def failureOnRecord (before : Bool) : List Word → State → Bool
  | [], _ => before
  | w :: ws, s =>
    match runCommand w s with
    | .next t => failureOnRecord (statErr t.stat != 0#3 || (before && w != encode .clre)) ws t
    | .fault _ => before
    | .refused _ => before

/-- The housekeeping commands; every other command is a computing one (00_scope.md section 7). -/
def isHousekeeping : Instr → Bool
  | .ldrs _ | .ldp _ _ | .clre => true
  | .cvolt _ | .cpct _ | .ctemp _ | .ccap _ | .ccur _ | .ctime _ | .cvthb _ | .etemp _ | .pcfg => false
  | .vvth _ | .evthb _ | .evth | .pack | .packs | .unpk _ | .unpks _ | .dvth _ => false

/-- Every register of the block holds the same in both states; the port may differ. -/
structure SameRegisters (s t : State) : Prop where
  p : t.p = s.p
  rsense : t.rsense = s.rsense
  res : t.res = s.res
  aux : t.aux = s.aux
  stat : t.stat = s.stat
  errval : t.errval = s.errval

/-- All that a command reads of the state is the same in both: `P[0..5]`, `RSENSE` and `STAT.CALV` (R16, R111). -/
structure SameInputs (s t : State) : Prop where
  p : t.p = s.p
  rsense : t.rsense = s.rsense
  calv : statCalv t.stat = statCalv s.stat

/-- What the rules let a command read of the state is the same in both (10_state.md R12; 70_reset_and_hazards.md R122): the parameter
registers it has a role for, the calibration for CCAP and CCUR, `STAT.CALV` for LDRS too, and nothing for every other command. -/
def inputsAgree (i : Instr) (s t : State) : Prop :=
  match i with
  | .pcfg => ∀ k, t.param k = s.param k
  | .evth | .pack | .packs => t.param 0 = s.param 0 ∧ t.param 1 = s.param 1
  | .ccap _ | .ccur _ => t.rsense = s.rsense ∧ statCalv t.stat = statCalv s.stat
  | .ldrs _ => statCalv t.stat = statCalv s.stat
  | .ldp _ _ | .clre => True
  | .cvolt _ | .cpct _ | .ctemp _ | .ctime _ | .cvthb _ | .etemp _ => True
  | .vvth _ | .evthb _ | .unpk _ | .unpks _ | .dvth _ => True

/-- `k` rising edges of `clk`. -/
def runEdges : Nat → State → Host.Outcome State Fault Refusal
  | 0, s => .next s
  | k + 1, s =>
    match step s with
    | .next t => runEdges k t
    | .fault f => .fault f
    | .refused r => .refused r

end Sys2Proof.Machine
end

