-- ==== Sys2Proof/Certificates/Slice0/Obligations.lean ====
section
/-! DEFINITION. The statements for the provers. Each cites the rule of spec/ it formalises. "Leaves the rest alone" is said by
`ResultAfter`, `FailureAfter` and `HousekeepingAfter` (Safety.lean); the block has no memory, so no clause about memory is needed. -/

open Sys2Proof Sys2Proof.Machine

/- ==== encoding: 30_encoding.md ==== -/

/-- R46, R47, R48, R53: decoding the word of a well-formed command gives the command back, every operand at every value. -/
def Obligations.DecodeOfEncodeIsIdentity : Prop :=
  ∀ i : Instr, i.wellFormed = true → decode (encode i) = .ok i

/-- R45, R49, R51: a word that decodes is the word of the command it decodes to, which is well formed: no bit of a word is dropped. -/
def Obligations.EncodeOfDecodeIsIdentity : Prop :=
  ∀ (w : Word) (i : Instr), decode w = .ok i → encode i = w ∧ i.wellFormed = true

/-- R50: a word is legal if and only if it matches a row of the opcode map; the illegal words are the cases (a) to (d); an illegal
word raises IllegalCommand with the word in ERRVAL and does nothing else. -/
def Obligations.LegalWordsAreTheOpcodeMap : Prop :=
  ∀ w : Word,
    (legalWord w = true ↔ ∃ i, decode w = .ok i) ∧
    (legalWord w = false ↔
      (cmdOpc w ∉ [0x01#8, 0x02#8, 0x03#8, 0x10#8, 0x11#8, 0x12#8, 0x13#8, 0x14#8, 0x15#8, 0x16#8, 0x17#8, 0x20#8, 0x30#8, 0x31#8,
          0x32#8, 0x33#8, 0x34#8, 0x35#8, 0x36#8, 0x37#8]) ∨
      (cmdOpc w ∈ [0x01#8, 0x10#8, 0x11#8, 0x12#8, 0x13#8, 0x14#8, 0x15#8, 0x16#8, 0x17#8, 0x30#8, 0x31#8, 0x35#8, 0x36#8, 0x37#8] ∧
        w.extractLsb' 16 8 ≠ 0#8) ∨
      (cmdOpc w ∈ [0x03#8, 0x20#8, 0x32#8, 0x33#8, 0x34#8] ∧ w.extractLsb' 0 24 ≠ 0#24) ∨
      (cmdOpc w = 0x02#8 ∧ (w.extractLsb' 19 5 ≠ 0#5 ∨ w.extractLsb' 16 3 = 6#3 ∨ w.extractLsb' 16 3 = 7#3))) ∧
    (legalWord w = false →
      ∀ s : State, ∃ t, runCommand w s = .next t ∧ FailureAfter .illegalCommand w s t) ∧
    legalWord 0x00000000#32 = false ∧ legalWord 0xFFFFFFFF#32 = false

/-- R51: no two rows of the opcode map match the same word. -/
def Obligations.NoWordMatchesTwoRows : Prop :=
  ∀ w : Word, opcodeMap.Pairwise fun r r' => w &&& r.mask = r.pattern → w &&& r'.mask ≠ r'.pattern

/-- R53: the encodings that the rule gives as examples decode to the commands it names. -/
def Obligations.ExampleWordsDecode : Prop :=
  decode 0x1000A000#32 = .ok (.cvolt 0xA000#16) ∧ decode 0x02010FA0#32 = .ok (.ldp 1#3 4000#16) ∧
  decode 0x32000000#32 = .ok .evth ∧ decode 0x3000FFEC#32 = .ok (.vvth 0xFFEC#16) ∧
  decode 0x20000000#32 = .ok .pcfg ∧ decode 0x0100000A#32 = .ok (.ldrs 10#16)

/-- R53: the assembler lines that the rule gives as examples stand for the words it names. -/
def Obligations.ExampleLinesAssemble : Prop :=
  assembleLines ["CVOLT 0xA000".toList, "LDP P1, 4000".toList, "EVTH".toList, "VVTH -20 ; a comment".toList] =
    some [0x1000A000#32, 0x02010FA0#32, 0x32000000#32, 0x3000FFEC#32]

/-- R54: the six loads of SETCFG cannot fail, and its outcome is that of PCFG on the six values loaded. -/
def Obligations.SetcfgIsPcfgOnItsOperands : Prop :=
  ∀ (c t e2 e3 e4 e5 : Half) (s : State), ∃ u : State,
    runCommands ([Instr.ldp 0#3 c, .ldp 1#3 t, .ldp 2#3 e2, .ldp 3#3 e3, .ldp 4#3 e4, .ldp 5#3 e5].map encode) s = .next u ∧
    u.p = #v[c, t, e2, e3, e4, e5] ∧ u.rsense = s.rsense ∧ statCalv u.stat = statCalv s.stat ∧
    statSe u.stat = statSe s.stat ∧ HousekeepingAfter s u ∧
    runCommands ((setcfg c t e2 e3 e4 e5).map encode) s = exec .pcfg u

/-- R55: SETVTH, SETTHB and SETTHS are EVTH, PACK and PACKS on the minimum and the maximum loaded, in that order. -/
def Obligations.PairPseudosLoadMinimumFirst : Prop :=
  ∀ (lo hi : Half) (s : State), ∃ u : State,
    runCommands ([Instr.ldp 0#3 lo, .ldp 1#3 hi].map encode) s = .next u ∧
    u.param 0 = lo ∧ u.param 1 = hi ∧ (∀ k : Fin 6, 2 ≤ k.val → u.param k = s.param k) ∧ HousekeepingAfter s u ∧
    runCommands ((setvth lo hi).map encode) s = exec .evth u ∧
    runCommands ((setthb lo hi).map encode) s = exec .pack u ∧
    runCommands ((setths lo hi).map encode) s = exec .packs u

/- ==== the step, the handshake, reset: 10_state.md, 70_reset_and_hazards.md ==== -/

/-- R19, R108: when the command in flight is due and the host does not reset, one step uses up the edge, clears the port, gives
`rsp_valid`, and executes exactly the command that the word decodes to. The port's form in State is the model's (log 3, log 4, log 5). -/
def Obligations.StepRunsTheDecodedCommand : Prop :=
  ∀ (s : State) (w : Word) (i : Instr), s.inFlight = some ⟨w, 0⟩ → s.input.rst = false → decode w = .ok i →
    step s = exec i { s with inFlight := none, rspValid := true, schedule := s.schedule.tail }

/-- R105: when the word in flight is due and illegal, the step raises IllegalCommand with the whole word in ERRVAL and writes no
other register. The port's form in State is the model's (log 3, log 4, log 5). -/
def Obligations.StepRaisesIllegalCommand : Prop :=
  ∀ (s : State) (w : Word), s.inFlight = some ⟨w, 0⟩ → s.input.rst = false → legalWord w = false →
    ∃ t, step s = .next t ∧
      FailureAfter .illegalCommand w { s with inFlight := none, rspValid := true, schedule := s.schedule.tail } t

/-- R21, R51: every command word from every state, and every clock edge, gives a next state. -/
def Obligations.NothingEverStops : Prop :=
  (∀ (w : Word) (s : State), ∃ t, runCommand w s = .next t) ∧ (∀ s : State, ∃ t, step s = .next t)

/-- R19: a command is accepted at an edge with `rst = 0`, `cmd_valid = 1`, `cmd_ready = 1`, and at no other; from acceptance until
completion `cmd_ready = 0` and every register keeps its value; completion is LAT edges after acceptance (here LAT is `n + 1`), where
the writes of the command take effect together, with `rsp_valid` for that one cycle and `cmd_ready` 1 again. The model's choices:
LAT is `n + 1` of the entry at which the command is accepted (log 3), the host is the schedule (log 4), and the completing edge accepts
nothing (log 7, DEDUCED). -/
def Obligations.AcceptedCommandCompletesAfterLat : Prop :=
  (∀ s : State, s.input.rst = false → s.inFlight = none →
    ∃ t, step s = .next t ∧ SameRegisters s t ∧ t.rspValid = false ∧
      t.inFlight = if s.input.cmdValid then some ⟨s.input.cmdWord, s.input.extraEdges⟩ else none) ∧
  (∀ (s : State) (c : InFlight), s.input.rst = false → s.inFlight = some c →
    ∃ t, step s = .next t ∧
      t.inFlight = if c.edgesLeft = 0 then none else some ⟨c.word, c.edgesLeft - 1⟩) ∧
  (∀ (s : State) (w : Word) (n : Nat) (waiting rest : List EdgeInput),
    s.inFlight = none → s.schedule = ⟨false, true, w, n⟩ :: (waiting ++ rest) → waiting.length = n + 1 →
    (∀ e ∈ waiting, e.rst = false) →
    (∀ k, 1 ≤ k → k ≤ n + 1 →
      ∃ t, runEdges k s = .next t ∧ SameRegisters s t ∧ t.cmdReady = false ∧ t.rspValid = false) ∧
    (∃ t, runEdges (n + 2) s = .next t ∧
      runCommand w { s with inFlight := none, rspValid := true, schedule := rest } = .next t ∧
      t.cmdReady = true ∧ t.rspValid = true ∧ t.schedule = rest))

/-- R120, R121: reset dominates; a command in flight is abandoned, and the state after reset is the reset state exactly; `cmd_ready` is
1 from the first edge at which `rst = 0`. That the host's schedule is one edge on is the model's choice (log 4). -/
def Obligations.ResetDominates : Prop :=
  ∀ s : State, s.input.rst = true →
    ∃ t, step s = .next t ∧ SameRegisters State.reset t ∧ t.inFlight = none ∧ t.rspValid = false ∧
      (t.input.rst = false → t.cmdReady = true) ∧ t.schedule = s.schedule.tail

/-- R23: after reset every bit of state is zero. -/
def Obligations.ResetStateIsAllZero : Prop :=
  (∀ k : Fin 6, State.reset.param k = 0x0000#16) ∧ State.reset.rsense = 0x0000#16 ∧ State.reset.res = 0x00000000#32 ∧
  State.reset.aux = 0x00000000#32 ∧ State.reset.stat = 0x0000#16 ∧ statErr State.reset.stat = 0#3 ∧
  statRv State.reset.stat = false ∧ statCalv State.reset.stat = false ∧ statSe State.reset.stat = false ∧
  State.reset.errval = 0x00000000#32

/-- R13, R16, R17, R101, R102, R106, R107: every clock edge keeps the registers legal, from every state in which they are. -/
def Obligations.StepKeepsRegistersLegal : Prop :=
  ∀ s t : State, Inv s → step s = .next t → Inv t

/-- The invariant of `StepKeepsRegistersLegal` holds after reset. -/
def Obligations.ResetRegistersLegal : Prop := Inv State.reset

/-- R13, R120, R128: once the calibration is valid, no command and no edge without reset changes RSENSE or clears CALV. -/
def Obligations.CalibrationIsWriteOnce : Prop :=
  (∀ (ws : List Word) (s t : State), statCalv s.stat = true → runCommands ws s = .next t →
    statCalv t.stat = true ∧ t.rsense = s.rsense) ∧
  (∀ s t : State, s.input.rst = false → statCalv s.stat = true → step s = .next t →
    statCalv t.stat = true ∧ t.rsense = s.rsense)

/-- R11: a parameter register is written only by LDP to it, which copies the immediate into it, and by reset: said of a command,
and of a clock edge. -/
def Obligations.OnlyLdpAndResetWriteParameters : Prop :=
  (∀ (i : Instr) (s t : State) (j : Fin 6), exec i s = .next t → t.param j ≠ s.param j →
    ∃ (k : BitVec 3) (imm : Half), i = .ldp k imm ∧ k.toNat = j.val ∧ t.param j = imm) ∧
  (∀ (s t : State) (j : Fin 6), step s = .next t → t.param j ≠ s.param j →
    (s.input.rst = true ∧ t.param j = 0#16) ∨
    ∃ (c : InFlight) (k : BitVec 3) (imm : Half), s.inFlight = some c ∧ c.edgesLeft = 0 ∧ decode c.word = .ok (.ldp k imm) ∧
      k.toNat = j.val ∧ t.param j = imm)

/-- R14, R15: for every computing command but CTEMP, CCUR and UNPKS bit 31 of RES is 0; for every one but CCAP, CCUR, UNPK, UNPKS and
DVTH, AUX is zero. -/
def Obligations.ResultRegisterRules : Prop :=
  ∀ (i : Instr) (s t : State), exec i s = .next t → isHousekeeping i = false →
    ((∀ imm, i ≠ .ctemp imm ∧ i ≠ .ccur imm ∧ i ≠ .unpks imm) → t.res.msb = false) ∧
    ((∀ imm, i ≠ .ccap imm ∧ i ≠ .ccur imm ∧ i ≠ .unpk imm ∧ i ≠ .unpks imm ∧ i ≠ .dvth imm) → t.aux = 0#32)

/- ==== outcomes: 60_exceptions.md ==== -/

/-- R108 (with R100, R101, R104, R105, R106, R107): a command word reports the first exception that applies, decode before state
precondition before operands, with the payload the tables give, and does nothing else; a word to which none applies succeeds. -/
def Obligations.FirstApplicableExceptionIsReported : Prop :=
  ∀ (w : Word) (s : State), ∃ t, runCommand w s = .next t ∧
    match reportedFailure w s with
    | some (e, info) => FailureAfter e info s t
    | none => statErr t.stat = 0#3 ∧ t.errval = 0#32

/-- R111: no command reads ERR, SE, RV, ERRVAL, RES or AUX: states that agree on P, RSENSE and CALV are led to the same parameters,
calibration, status code and payload, and by a computing command or a failure to the same results. -/
def Obligations.PastOutcomesDoNotMatter : Prop :=
  ∀ (w : Word) (s s' t t' : State), SameInputs s s' → runCommand w s = .next t → runCommand w s' = .next t' →
    SameInputs t t' ∧ statErr t'.stat = statErr t.stat ∧ t'.errval = t.errval ∧
    (statErr t.stat ≠ 0#3 ∨ (∃ i, decode w = .ok i ∧ isHousekeeping i = false) →
      t'.res = t.res ∧ t'.aux = t.aux ∧ statRv t'.stat = statRv t.stat)

/-- R12, R122: what a command answers depends on its operands and on the registers the rules let it read, and on no other state:
PCFG on `P[0..5]`, EVTH, PACK and PACKS on `P[0]` and `P[1]`, CCAP and CCUR on the calibration, LDRS on CALV, the others on nothing. -/
def Obligations.CommandsReadOnlyTheirInputs : Prop :=
  ∀ (i : Instr) (s s' t t' : State), inputsAgree i s s' → exec i s = .next t → exec i s' = .next t' →
    statErr t'.stat = statErr t.stat ∧ t'.errval = t.errval ∧
    (isHousekeeping i = false → t'.res = t.res ∧ t'.aux = t.aux ∧ statRv t'.stat = statRv t.stat)

/-- R124, R126: after a command word RES and AUX hold a usable result if and only if the word succeeded and either is a computing
command or a usable result stood there before, which it then leaves as it was. -/
def Obligations.ResultUsableOnlyAfterSuccess : Prop :=
  ∀ (w : Word) (s t : State), runCommand w s = .next t →
    (ResultUsable t ↔ statErr t.stat = 0#3 ∧
      ((∃ i, decode w = .ok i ∧ isHousekeeping i = false) ∨ statRv s.stat = true)) ∧
    ((∃ i, decode w = .ok i ∧ isHousekeeping i = true) → statErr t.stat = 0#3 →
      t.res = s.res ∧ t.aux = s.aux ∧ statRv t.stat = statRv s.stat) ∧
    (statErr t.stat ≠ 0#3 → t.res = 0#32 ∧ t.aux = 0#32 ∧ ¬ ResultUsable t)

/-- R113: after a list of command words, SE is 1 if and only if a command has failed since the last successful CLRE, or SE was 1
before and there was none; from reset, SE is 1 only for a failure on record. -/
def Obligations.StickyFlagRecordsFailures : Prop :=
  (∀ (ws : List Word) (s t : State), runCommands ws s = .next t → statSe t.stat = failureOnRecord (statSe s.stat) ws s) ∧
  (∀ (ws : List Word) (t : State), runCommands ws State.reset = .next t →
    (statSe t.stat = true ↔ failureOnRecord false ws State.reset = true))

/-- R36: a command other than LDRS, issued again at once, changes nothing more. -/
def Obligations.RepeatedCommandChangesNothing : Prop :=
  ∀ (i : Instr) (s t : State), (∀ imm, i ≠ .ldrs imm) → exec i s = .next t → exec i t = .next t

/- ==== conversions: 40_conversion.md ==== -/

/-- R63: CVOLT. -/
def Obligations.CvoltScalesBy625 : Prop :=
  ∀ (imm : Half) (s : State), decode (commandWord 0x10#8 0#8 imm) = .ok (.cvolt imm) ∧
    ∃ t, exec (.cvolt imm) s = .next t ∧ ResultAfter t.res 0#32 s t ∧ uval t.res = uval imm * 625 ∧
      (uval t.res : Rat) * (125 / 1000000000) = (uval imm : Rat) * (78125 / 1000000) / 1000

/-- R64: CPCT. -/
def Obligations.CpctIsUnclippedIdentity : Prop :=
  ∀ (imm : Half) (s : State), decode (commandWord 0x11#8 0#8 imm) = .ok (.cpct imm) ∧
    ∃ t, exec (.cpct imm) s = .next t ∧ ResultAfter (imm.setWidth 32) 0#32 s t ∧ uval t.res = uval imm ∧
      (uval t.res : Rat) * (1 / 256) = (uval imm : Rat) / 256

/-- R65: CTEMP. -/
def Obligations.CtempIsSigned : Prop :=
  ∀ (imm : Half) (s : State), decode (commandWord 0x12#8 0#8 imm) = .ok (.ctemp imm) ∧
    ∃ t, exec (.ctemp imm) s = .next t ∧ ResultAfter (imm.signExtend 32) 0#32 s t ∧ sval t.res = sval imm ∧
      (sval t.res : Rat) * (1 / 256) = (sval imm : Rat) / 256

/-- R66, with the division law R61: CCAP. -/
def Obligations.CcapDividesByRsense : Prop :=
  ∀ (imm : Half) (s : State), decode (commandWord 0x13#8 0#8 imm) = .ok (.ccap imm) ∧
    (statCalv s.stat = false →
      ∃ t, exec (.ccap imm) s = .next t ∧ FailureAfter .notCalibrated (imm.setWidth 32) s t) ∧
    (statCalv s.stat = true → s.rsense ≠ 0#16 →
      ∃ t, exec (.ccap imm) s = .next t ∧ ResultAfter t.res t.aux s t ∧
        uval t.res = uval imm * 5000 / uval s.rsense ∧
        uval t.res * uval s.rsense + uval t.aux = uval imm * 5000 ∧ uval t.aux < uval s.rsense ∧
        ((uval t.res : Rat) + uval t.aux / uval s.rsense) / 1000 = (uval imm : Rat) * 5 / uval s.rsense)

/-- R67, with the division law R61: CCUR, truncated toward zero, the remainder with the sign of the raw value. -/
def Obligations.CcurDividesByRsenseTowardZero : Prop :=
  ∀ (imm : Half) (s : State), decode (commandWord 0x14#8 0#8 imm) = .ok (.ccur imm) ∧
    (statCalv s.stat = false →
      ∃ t, exec (.ccur imm) s = .next t ∧ FailureAfter .notCalibrated (imm.setWidth 32) s t) ∧
    (statCalv s.stat = true → s.rsense ≠ 0#16 →
      ∃ t, exec (.ccur imm) s = .next t ∧ ResultAfter t.res t.aux s t ∧
        sval t.res = (if 0 ≤ sval imm then sval imm * 15625 / uval s.rsense else -((-(sval imm * 15625)) / uval s.rsense)) ∧
        sval t.res * uval s.rsense + sval t.aux = sval imm * 15625 ∧ |sval t.aux| < uval s.rsense ∧
        (0 ≤ sval imm → 0 ≤ sval t.aux) ∧ (sval imm ≤ 0 → sval t.aux ≤ 0) ∧
        ((sval t.res : Rat) + sval t.aux / uval s.rsense) / 10000 = (sval imm : Rat) * (15625 / 10000) / uval s.rsense)

/-- R68: CTIME. -/
def Obligations.CtimeScalesBy45 : Prop :=
  ∀ (imm : Half) (s : State), decode (commandWord 0x15#8 0#8 imm) = .ok (.ctime imm) ∧
    ∃ t, exec (.ctime imm) s = .next t ∧ ResultAfter t.res 0#32 s t ∧ uval t.res = uval imm * 45 ∧
      (uval t.res : Rat) * (1 / 8) = (uval imm : Rat) * (5625 / 1000)

/-- R69: CVTHB. -/
def Obligations.CvthbRefusesMoreThanAByte : Prop :=
  ∀ (imm : Half) (s : State), decode (commandWord 0x16#8 0#8 imm) = .ok (.cvthb imm) ∧
    ∃ t, exec (.cvthb imm) s = .next t ∧
      (uval imm ≤ 255 →
        ResultAfter t.res 0#32 s t ∧ uval t.res = uval imm * 20 ∧ IsThreshold (uval t.res) ∧
        (uval t.res : Rat) * (1 / 1000) = (uval imm : Rat) * (2 / 100)) ∧
      (255 < uval imm → FailureAfter .invalidConfigurationValue (imm.setWidth 32) s t)

/-- R70: ETEMP is the identity on 16 bits, and CTEMP of its result gives the temperature back. -/
def Obligations.EtempThenCtempIsIdentity : Prop :=
  ∀ (imm : Half) (s : State), decode (commandWord 0x17#8 0#8 imm) = .ok (.etemp imm) ∧
    ∃ t u, exec (.etemp imm) s = .next t ∧ ResultAfter (imm.setWidth 32) 0#32 s t ∧ t.res.extractLsb' 0 16 = imm ∧
      t.res.extractLsb' 16 16 = 0#16 ∧
      exec (.ctemp (t.res.extractLsb' 0 16)) t = .next u ∧ u.res = imm.signExtend 32 ∧ sval u.res = sval imm

/-- R61: quotient and remainder are the unique ones with `n = q * d + r`, `|r| < d` and `r` zero or of the sign of `n`; and the
conversion is odd-symmetric. -/
def Obligations.DivisionLaw : Prop :=
  ∀ n d : Int, 1 ≤ d →
    (n = tdiv n d * d + trem n d ∧ |trem n d| < d ∧ (0 ≤ n → 0 ≤ trem n d ∧ 0 ≤ tdiv n d) ∧
      (n ≤ 0 → trem n d ≤ 0 ∧ tdiv n d ≤ 0)) ∧
    (∀ q r : Int, n = q * d + r → |r| < d → (r = 0 ∨ (0 < r ∧ 0 < n) ∨ (r < 0 ∧ n < 0)) → q = tdiv n d ∧ r = trem n d) ∧
    tdiv (-n) d = -tdiv n d ∧ trem (-n) d = -trem n d

/-- R62: every integer a conversion encodes in 32 bits is held exactly, for every raw value and every calibration. -/
def Obligations.NoConversionOverflows : Prop :=
  ∀ (imm rsense : Half) (b : Byte),
    sval (enc32 (uval imm * 625)) = uval imm * 625 ∧ sval (enc32 (uval imm * 45)) = uval imm * 45 ∧
    sval (enc32 (uval b * 20)) = uval b * 20 ∧
    (rsense ≠ 0#16 →
      sval (enc32 (tdiv (uval imm * 5000) (uval rsense))) = tdiv (uval imm * 5000) (uval rsense) ∧
      sval (enc32 (trem (uval imm * 5000) (uval rsense))) = trem (uval imm * 5000) (uval rsense) ∧
      sval (enc32 (tdiv (sval imm * 15625) (uval rsense))) = tdiv (sval imm * 15625) (uval rsense) ∧
      sval (enc32 (trem (sval imm * 15625) (uval rsense))) = trem (sval imm * 15625) (uval rsense))

/-- R5, R60: the integer in the result registers times the unit of the command is the source's formula exactly, for every command
that has a unit, whenever it succeeds; for DVTH, which has two results, in AUX as in RES (R83). -/
def Obligations.PhysicalValueIsTheSourceFormula : Prop :=
  ∀ (i : Instr) (s t : State), RegistersLegal s → exec i s = .next t → statErr t.stat = 0#3 →
    (resultUnit i ≠ none → physicalValue i t = sourceFormula i s.rsense) ∧
    (auxUnit i ≠ none → auxPhysicalValue i t = auxSourceFormula i)

/- ==== the pack configuration: 00_scope.md, 41_config_encode.md ==== -/

/-- R6: the four masks meet the constraint; and every four masks that meet it come from an assignment of the bits to the fields
(log 2). -/
def Obligations.MasksAreDisjoint : Prop :=
  Config.masks.wf ∧ (∀ owner, (Config.masksOf owner).wf) ∧ (∀ m : Config.Masks, m.wf → ∃ owner, Config.masksOf owner = m)

/-- R71: PCFG reports the first failing check, in the order written; if none fails, its result is the code. -/
def Obligations.PcfgChecksThenEncodes : Prop :=
  ∀ s : State, decode 0x20000000#32 = .ok .pcfg ∧
    ∃ t, exec .pcfg s = .next t ∧
      (if ¬ (2 ≤ uval (s.param 0) ∧ uval (s.param 0) ≤ 4) then
        FailureAfter .invalidConfigurationValue ((s.param 0).setWidth 32) s t
      else if 4 < uval (s.param 1) then FailureAfter .invalidConfigurationValue ((s.param 1).setWidth 32) s t
      else if s.param 2 &&& ~~~Config.masks.thermistorType ≠ 0#16 then
        FailureAfter .invalidConfigurationValue ((s.param 2).setWidth 32) s t
      else if s.param 3 &&& ~~~Config.masks.chargePumpVoltage ≠ 0#16 then
        FailureAfter .invalidConfigurationValue ((s.param 3).setWidth 32) s t
      else if s.param 4 &&& ~~~Config.masks.regulatorMode ≠ 0#16 then
        FailureAfter .invalidConfigurationValue ((s.param 4).setWidth 32) s t
      else if s.param 5 &&& ~~~Config.masks.updateCadence ≠ 0#16 then
        FailureAfter .invalidConfigurationValue ((s.param 5).setWidth 32) s t
      else
        ResultAfter t.res 0#32 s t ∧
        t.res.extractLsb' 16 16 = 0#16 ∧
        t.res.extractLsb' 0 16 = (s.param 0 - 2#16) ||| (s.param 1 <<< 2) ||| s.param 2 ||| s.param 3 ||| s.param 4 ||| s.param 5 ∧
        uval t.res = (uval (s.param 0) - 2) + 4 * uval (s.param 1) + uval (s.param 2) + uval (s.param 3) + uval (s.param 4) +
          uval (s.param 5))

/-- R73: every code PCFG produces holds each input in its own field, and depends on `P[0..5]` alone. -/
def Obligations.PcfgCodeReadsBack : Prop :=
  ∀ s t : State, exec .pcfg s = .next t → statErr t.stat = 0#3 →
    ∃ code : Half, t.res = code.setWidth 32 ∧
      code.extractLsb' 0 2 ≠ 3#2 ∧ (code.extractLsb' 2 3).toNat ≤ 4 ∧
      code &&& ~~~(0x001F#16 ||| Config.masks.thermistorType ||| Config.masks.chargePumpVoltage ||| Config.masks.regulatorMode |||
        Config.masks.updateCadence) = 0#16 ∧
      uval (code &&& 0x0003#16) = uval (s.param 0) - 2 ∧ (code &&& 0x001C#16) >>> 2 = s.param 1 ∧
      code &&& Config.masks.thermistorType = s.param 2 ∧ code &&& Config.masks.chargePumpVoltage = s.param 3 ∧
      code &&& Config.masks.regulatorMode = s.param 4 ∧ code &&& Config.masks.updateCadence = s.param 5 ∧
      (∀ s' t' : State, s'.p = s.p → exec .pcfg s' = .next t' → t'.res = t.res)

/- ==== thresholds: 42_threshold.md ==== -/

/-- R75: the predicate, and the valid values are the 256 steps of 20 mV, one for each byte. -/
def Obligations.ValidThresholdsAreTheByteSteps : Prop :=
  (∀ v : Int, validVth v = true ↔ 0 ≤ v ∧ v ≤ 5100 ∧ v % 20 = 0) ∧
  (∀ v : Int, validVth v = true ↔ ∃ b : Byte, v = uval b * 20) ∧
  (∀ b b' : Byte, uval b * 20 = uval b' * 20 → b = b')

/-- R76: VVTH answers 1 or 0 and never fails. -/
def Obligations.VvthAnswersValidity : Prop :=
  ∀ (imm : Half) (s : State), decode (commandWord 0x30#8 0#8 imm) = .ok (.vvth imm) ∧
    ∃ t, exec (.vvth imm) s = .next t ∧ ResultAfter (if IsThreshold (sval imm) then 1#32 else 0#32) 0#32 s t

/-- R77: EVTHB answers the byte of a valid threshold and refuses every other; it is the inverse of CVTHB in both directions. -/
def Obligations.EvthbInvertsCvthb : Prop :=
  (∀ (imm : Half) (s : State), decode (commandWord 0x31#8 0#8 imm) = .ok (.evthb imm) ∧
    ∃ t, exec (.evthb imm) s = .next t ∧
      (IsThreshold (sval imm) → ResultAfter t.res 0#32 s t ∧ uval t.res * 20 = sval imm ∧ uval t.res ≤ 255) ∧
      (¬ IsThreshold (sval imm) → FailureAfter .invalidConfigurationValue (imm.signExtend 32) s t)) ∧
  (∀ (b : Byte) (s : State), ∃ t u, exec (.cvthb (b.setWidth 16)) s = .next t ∧
    exec (.evthb (t.res.extractLsb' 0 16)) t = .next u ∧ u.res = b.setWidth 32) ∧
  (∀ (v : Half) (s : State), IsThreshold (sval v) → ∃ t u, exec (.evthb v) s = .next t ∧
    exec (.cvthb (t.res.extractLsb' 0 16)) t = .next u ∧ u.res = v.setWidth 32)

/-- R78: EVTH checks the minimum, then the maximum, then answers the pair, maximum in bits 15:8. -/
def Obligations.EvthEncodesThePair : Prop :=
  ∀ s : State, decode 0x32000000#32 = .ok .evth ∧
    ∃ t, exec .evth s = .next t ∧
      (if ¬ IsThreshold (sval (s.param 0)) then
        FailureAfter .invalidConfigurationValue ((s.param 0).signExtend 32) s t
      else if ¬ IsThreshold (sval (s.param 1)) then
        FailureAfter .invalidConfigurationValue ((s.param 1).signExtend 32) s t
      else
        ResultAfter t.res 0#32 s t ∧ t.res.extractLsb' 16 16 = 0#16 ∧
        uval (t.res.extractLsb' 8 8) * 20 = sval (s.param 1) ∧ uval (t.res.extractLsb' 0 8) * 20 = sval (s.param 0))

/-- R79: PACK. -/
def Obligations.PackRefusesMoreThanAByte : Prop :=
  ∀ s : State, decode 0x33000000#32 = .ok .pack ∧
    ∃ t, exec .pack s = .next t ∧
      (if 255 < uval (s.param 0) then FailureAfter .invalidConfigurationValue ((s.param 0).setWidth 32) s t
      else if 255 < uval (s.param 1) then FailureAfter .invalidConfigurationValue ((s.param 1).setWidth 32) s t
      else
        ResultAfter t.res 0#32 s t ∧ t.res.extractLsb' 16 16 = 0#16 ∧
        uval (t.res.extractLsb' 8 8) = uval (s.param 1) ∧ uval (t.res.extractLsb' 0 8) = uval (s.param 0))

/-- R80: PACKS. -/
def Obligations.PacksRefusesMoreThanASignedByte : Prop :=
  ∀ s : State, decode 0x34000000#32 = .ok .packs ∧
    ∃ t, exec .packs s = .next t ∧
      (if sval (s.param 0) < -128 ∨ 127 < sval (s.param 0) then
        FailureAfter .invalidConfigurationValue ((s.param 0).signExtend 32) s t
      else if sval (s.param 1) < -128 ∨ 127 < sval (s.param 1) then
        FailureAfter .invalidConfigurationValue ((s.param 1).signExtend 32) s t
      else
        ResultAfter t.res 0#32 s t ∧ t.res.extractLsb' 16 16 = 0#16 ∧
        sval (t.res.extractLsb' 8 8) = sval (s.param 1) ∧ sval (t.res.extractLsb' 0 8) = sval (s.param 0))

/-- R81, R82: UNPK and UNPKS answer the maximum in RES and the minimum in AUX, unsigned and signed. -/
def Obligations.UnpackSplitsThePair : Prop :=
  ∀ (imm : Half) (s : State),
    decode (commandWord 0x35#8 0#8 imm) = .ok (.unpk imm) ∧ decode (commandWord 0x36#8 0#8 imm) = .ok (.unpks imm) ∧
    (∃ t, exec (.unpk imm) s = .next t ∧
      ResultAfter ((imm.extractLsb' 8 8).setWidth 32) ((imm.extractLsb' 0 8).setWidth 32) s t ∧
      uval t.res * 256 + uval t.aux = uval imm) ∧
    (∃ t, exec (.unpks imm) s = .next t ∧
      ResultAfter ((imm.extractLsb' 8 8).signExtend 32) ((imm.extractLsb' 0 8).signExtend 32) s t ∧
      -128 ≤ sval t.res ∧ sval t.res ≤ 127 ∧ -128 ≤ sval t.aux ∧ sval t.aux ≤ 127)

/-- R83: DVTH. -/
def Obligations.DvthDecodesThePair : Prop :=
  ∀ (imm : Half) (s : State), decode (commandWord 0x37#8 0#8 imm) = .ok (.dvth imm) ∧
    ∃ t, exec (.dvth imm) s = .next t ∧ ResultAfter t.res t.aux s t ∧
      uval t.res = uval (imm.extractLsb' 8 8) * 20 ∧ uval t.aux = uval (imm.extractLsb' 0 8) * 20 ∧
      uval t.res ≤ 5100 ∧ uval t.aux ≤ 5100

/-- R84 (a), (b), (c): the round trips of a pair, through the command words the host issues. -/
def Obligations.PairRoundTrips : Prop :=
  (∀ (w : Half) (s : State), ∃ t u, runCommand (encode (.dvth w)) s = .next t ∧
    runCommands ((setvth (t.aux.extractLsb' 0 16) (t.res.extractLsb' 0 16)).map encode) t = .next u ∧
    statErr u.stat = 0#3 ∧ u.res = w.setWidth 32) ∧
  (∀ (lo hi : Half) (s : State), IsThreshold (sval lo) → IsThreshold (sval hi) →
    ∃ t u, runCommands ((setvth lo hi).map encode) s = .next t ∧
      runCommand (encode (.dvth (t.res.extractLsb' 0 16))) t = .next u ∧ uval u.aux = sval lo ∧ uval u.res = sval hi) ∧
  (∀ (w : Half) (s : State), ∃ t u, runCommand (encode (.unpk w)) s = .next t ∧
    runCommands ((setthb (t.aux.extractLsb' 0 16) (t.res.extractLsb' 0 16)).map encode) t = .next u ∧
    statErr u.stat = 0#3 ∧ u.res = w.setWidth 32) ∧
  (∀ (w : Half) (s : State), ∃ t u, runCommand (encode (.unpks w)) s = .next t ∧
    runCommands ((setths (t.aux.extractLsb' 0 16) (t.res.extractLsb' 0 16)).map encode) t = .next u ∧
    statErr u.stat = 0#3 ∧ u.res = w.setWidth 32)

/-- R85: whether EVTH, PACK and PACKS succeed does not depend on which of two operands is the minimum. -/
def Obligations.PairOrderIsNotCompared : Prop :=
  ∀ (i : Instr) (s s' t t' : State), i = .evth ∨ i = .pack ∨ i = .packs →
    s'.param 0 = s.param 1 → s'.param 1 = s.param 0 → exec i s = .next t → exec i s' = .next t' →
    (statErr t.stat = 0#3 ↔ statErr t'.stat = 0#3)

/- ==== housekeeping: 43_housekeeping.md ==== -/

/-- R90: LDRS, with the priority of R108. -/
def Obligations.LdrsLoadsOnce : Prop :=
  ∀ (imm : Half) (s : State), decode (commandWord 0x01#8 0#8 imm) = .ok (.ldrs imm) ∧
    ∃ t, exec (.ldrs imm) s = .next t ∧
      (if statCalv s.stat = true then FailureAfter .calLocked (imm.setWidth 32) s t
      else if imm = 0#16 then FailureAfter .invalidConfigurationValue 0#32 s t
      else
        HousekeepingAfter s t ∧ t.rsense = imm ∧ statCalv t.stat = true ∧ statSe t.stat = statSe s.stat ∧ t.p = s.p)

/-- R91: LDP loads any value into the register it names and touches no other; `k` 6 and 7 are illegal encodings that load nothing. -/
def Obligations.LdpLoadsOneRegister : Prop :=
  ∀ (k : BitVec 3) (imm : Half) (s : State),
    (k.toNat ≤ 5 →
      decode (commandWord 0x02#8 (0#5 ++ k) imm) = .ok (.ldp k imm) ∧
      ∃ t, exec (.ldp k imm) s = .next t ∧ HousekeepingAfter s t ∧
        (∀ j : Fin 6, t.param j = if j.val = k.toNat then imm else s.param j) ∧
        t.rsense = s.rsense ∧ statCalv t.stat = statCalv s.stat ∧ statSe t.stat = statSe s.stat) ∧
    (5 < k.toNat →
      ∃ t, runCommand (commandWord 0x02#8 (0#5 ++ k) imm) s = .next t ∧
        FailureAfter .illegalCommand (commandWord 0x02#8 (0#5 ++ k) imm) s t)

/-- R92: CLRE clears SE, ERR and ERRVAL and nothing else. -/
def Obligations.ClreClearsTheStickyFlag : Prop :=
  ∀ s : State, decode 0x03000000#32 = .ok .clre ∧
    ∃ t, exec .clre s = .next t ∧ HousekeepingAfter s t ∧ statSe t.stat = false ∧ statCalv t.stat = statCalv s.stat ∧
      t.p = s.p ∧ t.rsense = s.rsense
end

