-- ==== Sys2Proof/Laws/Assembler.lean ====
section
/-! SUPPORT. What the reading of a digit can answer (spec/30_encoding.md R53). -/

namespace Sys2Proof.Machine

/-- A digit has a value below 16: a decimal digit or upper-case letter its place, a lower-case letter ten more than its place. -/
theorem digitValue_lt {c : Char} {d : Nat} (h : digitValue c = some d) : d < 16 := by
  unfold digitValue at h
  split at h
  · rename_i place found
    cases h
    exact (List.idxOf?_eq_some_iff.mp found).1
  · obtain ⟨place, found, rfl⟩ := Option.map_eq_some_iff.mp h
    have : place < 6 := (List.idxOf?_eq_some_iff.mp found).1
    omega

end Sys2Proof.Machine
end

