-- ==== Sys2Proof/Laws/Flags.lean ====
section
/-! SUPPORT. Reading a field of `STAT` after a field was written: the written field has the new value, every other field and the
reserved bits keep theirs (spec/10_state.md R16). -/

namespace Sys2Proof.Machine

variable (st : Half) (reserved : BitVec 10) (se calv rv : Bool) (err : BitVec 3)

/-- Bit by bit, what a `STAT` word built from its fields holds. -/
theorem getLsbD_statWord (i : Nat) :
    (statWord reserved se calv rv err).getLsbD i =
      if i < 3 then err.getLsbD i
      else if i = 3 then rv
      else if i = 4 then calv
      else if i = 5 then se
      else reserved.getLsbD (i - 6) := by
  have h : (statWord reserved se calv rv err).getLsbD i =
      BitVec.getLsbD (w := 10 + (1 + (1 + (1 + 3))))
        (reserved ++ (BitVec.ofBool se ++ (BitVec.ofBool calv ++ (BitVec.ofBool rv ++ err)))) i := rfl
  rw [h]
  simp only [BitVec.getLsbD_append, BitVec.getLsbD_ofBool]
  rcases i with _ | _ | _ | _ | _ | _ | i <;> simp
  rw [decide_eq_false (by omega), decide_eq_false (by omega)]

@[simp] theorem statErr_statWord : statErr (statWord reserved se calv rv err) = err := by
  apply BitVec.eq_of_getLsbD_eq
  intro i hi
  simp [statErr, getLsbD_statWord, hi]

@[simp] theorem statRv_statWord : statRv (statWord reserved se calv rv err) = rv := by
  rw [statRv, getLsbD_statWord]; rfl

@[simp] theorem statCalv_statWord : statCalv (statWord reserved se calv rv err) = calv := by
  rw [statCalv, getLsbD_statWord]; rfl

@[simp] theorem statSe_statWord : statSe (statWord reserved se calv rv err) = se := by
  rw [statSe, getLsbD_statWord]; rfl

@[simp] theorem statReserved_statWord : statReserved (statWord reserved se calv rv err) = reserved := by
  apply BitVec.eq_of_getLsbD_eq
  intro i hi
  have h6 : ¬ 6 + i < 3 := by omega
  have h7 : ¬ 6 + i = 3 := by omega
  have h8 : ¬ 6 + i = 4 := by omega
  have h9 : ¬ 6 + i = 5 := by omega
  simp [statReserved, getLsbD_statWord, hi, h6, h7, h8, h9]

/-- A `STAT` word is its fields. -/
theorem statWord_eta : statWord (statReserved st) (statSe st) (statCalv st) (statRv st) (statErr st) = st := by
  apply BitVec.eq_of_getLsbD_eq
  intro i hi
  rw [getLsbD_statWord]
  rcases i with _ | _ | _ | _ | _ | _ | i <;> simp [statErr, statRv, statCalv, statSe, statReserved]
  have h10 : i < 10 := by omega
  have h3 : ¬ i + 6 < 3 := by omega
  simp [h10, Nat.add_comm 6 i]

/-- Two `STAT` words with the same fields are the same. -/
theorem stat_ext {st st' : Half} (h0 : statReserved st = statReserved st') (h1 : statSe st = statSe st')
    (h2 : statCalv st = statCalv st') (h3 : statRv st = statRv st') (h4 : statErr st = statErr st') : st = st' := by
  rw [← statWord_eta st, ← statWord_eta st', h0, h1, h2, h3, h4]

@[simp] theorem statErr_withErr : statErr (statWithErr st err) = err := by simp [statWithErr]
@[simp] theorem statRv_withErr : statRv (statWithErr st err) = statRv st := by simp [statWithErr]
@[simp] theorem statCalv_withErr : statCalv (statWithErr st err) = statCalv st := by simp [statWithErr]
@[simp] theorem statSe_withErr : statSe (statWithErr st err) = statSe st := by simp [statWithErr]
@[simp] theorem statReserved_withErr : statReserved (statWithErr st err) = statReserved st := by simp [statWithErr]

@[simp] theorem statErr_withRv : statErr (statWithRv st rv) = statErr st := by simp [statWithRv]
@[simp] theorem statRv_withRv : statRv (statWithRv st rv) = rv := by simp [statWithRv]
@[simp] theorem statCalv_withRv : statCalv (statWithRv st rv) = statCalv st := by simp [statWithRv]
@[simp] theorem statSe_withRv : statSe (statWithRv st rv) = statSe st := by simp [statWithRv]
@[simp] theorem statReserved_withRv : statReserved (statWithRv st rv) = statReserved st := by simp [statWithRv]

@[simp] theorem statErr_withCalv : statErr (statWithCalv st calv) = statErr st := by simp [statWithCalv]
@[simp] theorem statRv_withCalv : statRv (statWithCalv st calv) = statRv st := by simp [statWithCalv]
@[simp] theorem statCalv_withCalv : statCalv (statWithCalv st calv) = calv := by simp [statWithCalv]
@[simp] theorem statSe_withCalv : statSe (statWithCalv st calv) = statSe st := by simp [statWithCalv]
@[simp] theorem statReserved_withCalv : statReserved (statWithCalv st calv) = statReserved st := by simp [statWithCalv]

@[simp] theorem statErr_withSe : statErr (statWithSe st se) = statErr st := by simp [statWithSe]
@[simp] theorem statRv_withSe : statRv (statWithSe st se) = statRv st := by simp [statWithSe]
@[simp] theorem statCalv_withSe : statCalv (statWithSe st se) = statCalv st := by simp [statWithSe]
@[simp] theorem statSe_withSe : statSe (statWithSe st se) = se := by simp [statWithSe]
@[simp] theorem statReserved_withSe : statReserved (statWithSe st se) = statReserved st := by simp [statWithSe]

end Sys2Proof.Machine
end

