-- ==== Sys2Proof/Laws/State.lean ====
section
/-! SUPPORT. One lemma per field of State per update, true by rfl, so that no later proof unfolds a record update; and reading one
parameter register after each update. -/

namespace Sys2Proof.Machine

@[simp] theorem withParam_p (s : State) (k : Fin 6) (v : Half) : (s.withParam k v).p = s.p.set k.val v k.isLt := rfl
@[simp] theorem withParam_rsense (s : State) (k : Fin 6) (v : Half) : (s.withParam k v).rsense = s.rsense := rfl
@[simp] theorem withParam_res (s : State) (k : Fin 6) (v : Half) : (s.withParam k v).res = s.res := rfl
@[simp] theorem withParam_aux (s : State) (k : Fin 6) (v : Half) : (s.withParam k v).aux = s.aux := rfl
@[simp] theorem withParam_stat (s : State) (k : Fin 6) (v : Half) : (s.withParam k v).stat = s.stat := rfl
@[simp] theorem withParam_errval (s : State) (k : Fin 6) (v : Half) : (s.withParam k v).errval = s.errval := rfl
@[simp] theorem withParam_rspValid (s : State) (k : Fin 6) (v : Half) : (s.withParam k v).rspValid = s.rspValid := rfl
@[simp] theorem withParam_inFlight (s : State) (k : Fin 6) (v : Half) : (s.withParam k v).inFlight = s.inFlight := rfl
@[simp] theorem withParam_schedule (s : State) (k : Fin 6) (v : Half) : (s.withParam k v).schedule = s.schedule := rfl

@[simp] theorem calibrate_p (s : State) (v : Half) : (s.calibrate v).p = s.p := rfl
@[simp] theorem calibrate_rsense (s : State) (v : Half) : (s.calibrate v).rsense = v := rfl
@[simp] theorem calibrate_res (s : State) (v : Half) : (s.calibrate v).res = s.res := rfl
@[simp] theorem calibrate_aux (s : State) (v : Half) : (s.calibrate v).aux = s.aux := rfl
@[simp] theorem calibrate_stat (s : State) (v : Half) : (s.calibrate v).stat = statWithCalv s.stat true := rfl
@[simp] theorem calibrate_errval (s : State) (v : Half) : (s.calibrate v).errval = s.errval := rfl
@[simp] theorem calibrate_rspValid (s : State) (v : Half) : (s.calibrate v).rspValid = s.rspValid := rfl
@[simp] theorem calibrate_inFlight (s : State) (v : Half) : (s.calibrate v).inFlight = s.inFlight := rfl
@[simp] theorem calibrate_schedule (s : State) (v : Half) : (s.calibrate v).schedule = s.schedule := rfl

@[simp] theorem doneResult_p (r a : Word) (s : State) : (doneResult r a s).p = s.p := rfl
@[simp] theorem doneResult_rsense (r a : Word) (s : State) : (doneResult r a s).rsense = s.rsense := rfl
@[simp] theorem doneResult_res (r a : Word) (s : State) : (doneResult r a s).res = r := rfl
@[simp] theorem doneResult_aux (r a : Word) (s : State) : (doneResult r a s).aux = a := rfl
@[simp] theorem doneResult_stat (r a : Word) (s : State) : (doneResult r a s).stat = statWithErr (statWithRv s.stat true) 0#3 := rfl
@[simp] theorem doneResult_errval (r a : Word) (s : State) : (doneResult r a s).errval = 0#32 := rfl
@[simp] theorem doneResult_rspValid (r a : Word) (s : State) : (doneResult r a s).rspValid = s.rspValid := rfl
@[simp] theorem doneResult_inFlight (r a : Word) (s : State) : (doneResult r a s).inFlight = s.inFlight := rfl
@[simp] theorem doneResult_schedule (r a : Word) (s : State) : (doneResult r a s).schedule = s.schedule := rfl

@[simp] theorem doneHousekeeping_p (s : State) : (doneHousekeeping s).p = s.p := rfl
@[simp] theorem doneHousekeeping_rsense (s : State) : (doneHousekeeping s).rsense = s.rsense := rfl
@[simp] theorem doneHousekeeping_res (s : State) : (doneHousekeeping s).res = s.res := rfl
@[simp] theorem doneHousekeeping_aux (s : State) : (doneHousekeeping s).aux = s.aux := rfl
@[simp] theorem doneHousekeeping_stat (s : State) : (doneHousekeeping s).stat = statWithErr s.stat 0#3 := rfl
@[simp] theorem doneHousekeeping_errval (s : State) : (doneHousekeeping s).errval = 0#32 := rfl
@[simp] theorem doneHousekeeping_rspValid (s : State) : (doneHousekeeping s).rspValid = s.rspValid := rfl
@[simp] theorem doneHousekeeping_inFlight (s : State) : (doneHousekeeping s).inFlight = s.inFlight := rfl
@[simp] theorem doneHousekeeping_schedule (s : State) : (doneHousekeeping s).schedule = s.schedule := rfl

@[simp] theorem raise_p (e : Cause) (info : Word) (s : State) : (raise e info s).p = s.p := rfl
@[simp] theorem raise_rsense (e : Cause) (info : Word) (s : State) : (raise e info s).rsense = s.rsense := rfl
@[simp] theorem raise_res (e : Cause) (info : Word) (s : State) : (raise e info s).res = 0#32 := rfl
@[simp] theorem raise_aux (e : Cause) (info : Word) (s : State) : (raise e info s).aux = 0#32 := rfl
@[simp] theorem raise_stat (e : Cause) (info : Word) (s : State) : (raise e info s).stat = statWithErr (statWithRv (statWithSe s.stat true) false) (statusCode e) := rfl
@[simp] theorem raise_errval (e : Cause) (info : Word) (s : State) : (raise e info s).errval = info := rfl
@[simp] theorem raise_rspValid (e : Cause) (info : Word) (s : State) : (raise e info s).rspValid = s.rspValid := rfl
@[simp] theorem raise_inFlight (e : Cause) (info : Word) (s : State) : (raise e info s).inFlight = s.inFlight := rfl
@[simp] theorem raise_schedule (e : Cause) (info : Word) (s : State) : (raise e info s).schedule = s.schedule := rfl

@[simp] theorem tick_p (s : State) : (s.tick).p = s.p := rfl
@[simp] theorem tick_rsense (s : State) : (s.tick).rsense = s.rsense := rfl
@[simp] theorem tick_res (s : State) : (s.tick).res = s.res := rfl
@[simp] theorem tick_aux (s : State) : (s.tick).aux = s.aux := rfl
@[simp] theorem tick_stat (s : State) : (s.tick).stat = s.stat := rfl
@[simp] theorem tick_errval (s : State) : (s.tick).errval = s.errval := rfl
@[simp] theorem tick_rspValid (s : State) : (s.tick).rspValid = false := rfl
@[simp] theorem tick_inFlight (s : State) : (s.tick).inFlight = s.inFlight := rfl
@[simp] theorem tick_schedule (s : State) : (s.tick).schedule = s.schedule.tail := rfl

@[simp] theorem withCommandDue_p (s : State) (w : Word) : (s.withCommandDue w).p = s.p := rfl
@[simp] theorem withCommandDue_rsense (s : State) (w : Word) : (s.withCommandDue w).rsense = s.rsense := rfl
@[simp] theorem withCommandDue_res (s : State) (w : Word) : (s.withCommandDue w).res = s.res := rfl
@[simp] theorem withCommandDue_aux (s : State) (w : Word) : (s.withCommandDue w).aux = s.aux := rfl
@[simp] theorem withCommandDue_stat (s : State) (w : Word) : (s.withCommandDue w).stat = s.stat := rfl
@[simp] theorem withCommandDue_errval (s : State) (w : Word) : (s.withCommandDue w).errval = s.errval := rfl
@[simp] theorem withCommandDue_rspValid (s : State) (w : Word) : (s.withCommandDue w).rspValid = s.rspValid := rfl
@[simp] theorem withCommandDue_inFlight (s : State) (w : Word) : (s.withCommandDue w).inFlight = some ⟨w, 0⟩ := rfl

@[simp] theorem reset_p : State.reset.p = Vector.replicate 6 0#16 := rfl
@[simp] theorem reset_rsense : State.reset.rsense = 0#16 := rfl
@[simp] theorem reset_res : State.reset.res = 0#32 := rfl
@[simp] theorem reset_aux : State.reset.aux = 0#32 := rfl
@[simp] theorem reset_stat : State.reset.stat = 0#16 := rfl
@[simp] theorem reset_errval : State.reset.errval = 0#32 := rfl
@[simp] theorem reset_rspValid : State.reset.rspValid = false := rfl
@[simp] theorem reset_inFlight : State.reset.inFlight = none := rfl
@[simp] theorem reset_schedule : State.reset.schedule = [] := rfl

@[simp] theorem resetBlock_p (s : State) : (resetBlock s).p = Vector.replicate 6 0#16 := rfl
@[simp] theorem resetBlock_rsense (s : State) : (resetBlock s).rsense = 0#16 := rfl
@[simp] theorem resetBlock_res (s : State) : (resetBlock s).res = 0#32 := rfl
@[simp] theorem resetBlock_aux (s : State) : (resetBlock s).aux = 0#32 := rfl
@[simp] theorem resetBlock_stat (s : State) : (resetBlock s).stat = 0#16 := rfl
@[simp] theorem resetBlock_errval (s : State) : (resetBlock s).errval = 0#32 := rfl
@[simp] theorem resetBlock_rspValid (s : State) : (resetBlock s).rspValid = false := rfl
@[simp] theorem resetBlock_inFlight (s : State) : (resetBlock s).inFlight = none := rfl
@[simp] theorem resetBlock_schedule (s : State) : (resetBlock s).schedule = s.schedule := rfl

/-- A parameter register reads what was written to it last (spec/10_state.md R11). -/
@[simp] theorem withParam_param_same (s : State) (k : Fin 6) (v : Half) : (s.withParam k v).param k = v := by
  simp [State.param]

/-- Writing one parameter register leaves the others alone (spec/43_housekeeping.md R91). -/
@[simp] theorem withParam_param_other (s : State) {k j : Fin 6} (v : Half) (h : j ≠ k) :
    (s.withParam k v).param j = s.param j := by
  have h' : (k : Nat) ≠ (j : Nat) := fun e => h (Fin.ext e.symm)
  simp [State.param, h']

@[simp] theorem calibrate_param (s : State) (v : Half) (k : Fin 6) : (s.calibrate v).param k = s.param k := rfl
@[simp] theorem doneResult_param (r a : Word) (s : State) (k : Fin 6) : (doneResult r a s).param k = s.param k := rfl
@[simp] theorem doneHousekeeping_param (s : State) (k : Fin 6) : (doneHousekeeping s).param k = s.param k := rfl
@[simp] theorem raise_param (e : Cause) (info : Word) (s : State) (k : Fin 6) : (raise e info s).param k = s.param k := rfl
@[simp] theorem tick_param (s : State) (k : Fin 6) : s.tick.param k = s.param k := rfl

end Sys2Proof.Machine
end

