-- ==== Sys2Proof/Laws/Ops.lean ====
section
/-! SUPPORT. What each shared operation can do, said once (spec/60_exceptions.md R100, R101, R108), for the proofs to cite instead of
unfolding it. -/

namespace Sys2Proof.Machine

/-- A check either goes on or takes the exception. -/
theorem unlessRaise_cases (ok : Bool) (e : Cause) (info : Word) (s goOn : State) :
    (ok = true ∧ unlessRaise ok e info s goOn = goOn) ∨ (ok = false ∧ unlessRaise ok e info s goOn = raise e info s) := by
  cases ok <;> simp [unlessRaise]

@[simp] theorem unlessRaise_true (e : Cause) (info : Word) (s goOn : State) : unlessRaise true e info s goOn = goOn := rfl
@[simp] theorem unlessRaise_false (e : Cause) (info : Word) (s goOn : State) : unlessRaise false e info s goOn = raise e info s := rfl

/-- The fields of `STAT` after success with a result (R100). -/
theorem doneResult_stat_fields (r a : Word) (s : State) :
    statErr (doneResult r a s).stat = 0#3 ∧ statRv (doneResult r a s).stat = true ∧
    statSe (doneResult r a s).stat = statSe s.stat ∧ statCalv (doneResult r a s).stat = statCalv s.stat ∧
    statReserved (doneResult r a s).stat = statReserved s.stat := by simp

/-- The fields of `STAT` after success of a housekeeping command (R100). -/
theorem doneHousekeeping_stat_fields (s : State) :
    statErr (doneHousekeeping s).stat = 0#3 ∧ statRv (doneHousekeeping s).stat = statRv s.stat ∧
    statSe (doneHousekeeping s).stat = statSe s.stat ∧ statCalv (doneHousekeeping s).stat = statCalv s.stat ∧
    statReserved (doneHousekeeping s).stat = statReserved s.stat := by simp

/-- The fields of `STAT` after an exception (R101). -/
theorem raise_stat_fields (e : Cause) (info : Word) (s : State) :
    statErr (raise e info s).stat = statusCode e ∧ statRv (raise e info s).stat = false ∧
    statSe (raise e info s).stat = true ∧ statCalv (raise e info s).stat = statCalv s.stat ∧
    statReserved (raise e info s).stat = statReserved s.stat := by simp

/-- No exception has the code of success (R102). -/
theorem statusCode_ne_zero (e : Cause) : statusCode e ≠ 0#3 := by cases e <;> decide

/-- No exception has a code above 4 (R102). -/
theorem statusCode_le (e : Cause) : (statusCode e).toNat ≤ 4 := by cases e <;> decide

/-- A division either takes NotCalibrated or answers quotient and remainder (R106; spec/40_conversion.md R66, R67). -/
theorem divideByRsense_cases (n : Int) (imm : Half) (s : State) :
    (statCalv s.stat = true ∧
      divideByRsense n imm s = doneResult (enc32 (tdiv n (uval s.rsense))) (enc32 (trem n (uval s.rsense))) s) ∨
    (statCalv s.stat = false ∧ divideByRsense n imm s = raise .notCalibrated (zext32 imm) s) := by
  unfold divideByRsense
  rcases unlessRaise_cases (statCalv s.stat) .notCalibrated (zext32 imm) s
    (doneResult (enc32 (tdiv n (uval s.rsense))) (enc32 (trem n (uval s.rsense))) s) with h | h
  · exact .inl h
  · exact .inr h

/-- A pair command either reports its first bad operand or answers the pair, maximum in the high byte (spec/42_threshold.md R78 to
R80). -/
theorem encodePair_cases (ok : Half → Bool) (widen : Half → Word) (toByte : Half → Byte) (s : State) :
    (ok (s.param 0) = false ∧
      encodePair ok widen toByte s = raise .invalidConfigurationValue (widen (s.param 0)) s) ∨
    (ok (s.param 0) = true ∧ ok (s.param 1) = false ∧
      encodePair ok widen toByte s = raise .invalidConfigurationValue (widen (s.param 1)) s) ∨
    (ok (s.param 0) = true ∧ ok (s.param 1) = true ∧
      encodePair ok widen toByte s = doneResult (zext32 (pairWord (toByte (s.param 1)) (toByte (s.param 0)))) 0#32 s) := by
  unfold encodePair
  cases h0 : ok (s.param 0) <;> cases h1 : ok (s.param 1) <;> simp

/-- `fitsMask` is the mask test of spec/41_config_encode.md R71. -/
theorem fitsMask_iff (v mask : Half) : fitsMask v mask = true ↔ v &&& ~~~mask = 0#16 := by
  constructor
  · intro h
    rcases (Bool.or_eq_true _ _).mp h with h | h
    · simp [eq_of_beq h]
    · exact eq_of_beq h
  · intro h
    simp [fitsMask, h]

/-- PCFG either reports one of its six inputs or answers the code (spec/41_config_encode.md R71). -/
theorem encodeConfig_cases (m : Config.Masks) (s : State) :
    (∃ k : Fin 6, encodeConfig m s = raise .invalidConfigurationValue (zext32 (s.param k)) s) ∨
    encodeConfig m s = doneResult
      (zext32 (configCode (s.param 0) (s.param 1) (s.param 2) (s.param 3) (s.param 4) (s.param 5))) 0#32 s := by
  unfold encodeConfig unlessRaise
  split
  · split
    · split
      · split
        · split
          · split
            · exact .inr rfl
            · exact .inl ⟨5, rfl⟩
          · exact .inl ⟨4, rfl⟩
        · exact .inl ⟨3, rfl⟩
      · exact .inl ⟨2, rfl⟩
    · exact .inl ⟨1, rfl⟩
  · exact .inl ⟨0, rfl⟩

/-- The parameter register of a legal `k` (spec/30_encoding.md R47). -/
theorem paramIndex_of_le {k : BitVec 3} (h : k.toNat ≤ 5) : paramIndex k = some ⟨k.toNat, by omega⟩ := by
  unfold paramIndex
  rw [dif_pos (by omega)]

/-- `k` 6 and 7 name no parameter register (spec/30_encoding.md R47). -/
theorem paramIndex_of_gt {k : BitVec 3} (h : ¬ k.toNat ≤ 5) : paramIndex k = none := by
  unfold paramIndex
  rw [dif_neg (by omega)]

/-- The ways the execution of a command can end (R100, R101): success with a result; success of LDP, of LDRS, of CLRE; an
exception, with the state precondition of the two that have one (R106, R107). -/
inductive Ending (i : Instr) (s : State) : State → Prop where
  | result (r a : Word) (computing : isHousekeeping i = false) : Ending i s (doneResult r a s)
  | loaded (k : BitVec 3) (v : Half) (ldp : i = .ldp k v) (h : k.toNat < 6) :
      Ending i s (doneHousekeeping (s.withParam ⟨k.toNat, h⟩ v))
  | calibrated (v : Half) (ldrs : i = .ldrs v) (nonzero : v ≠ 0#16) (unlocked : statCalv s.stat = false) :
      Ending i s (doneHousekeeping (s.calibrate v))
  | cleared (clre : i = .clre) : Ending i s (doneHousekeeping { s with stat := statWithSe s.stat false })
  | notCalibrated (info : Word) (unlocked : statCalv s.stat = false) : Ending i s (raise .notCalibrated info s)
  | calLocked (info : Word) (locked : statCalv s.stat = true) : Ending i s (raise .calLocked info s)
  | invalid (info : Word) : Ending i s (raise .invalidConfigurationValue info s)
  | illegal (info : Word) : Ending i s (raise .illegalCommand info s)

/-- Every command answers a next state, in one of these ways. -/
theorem exec_ending (i : Instr) (s : State) : ∃ t, exec i s = .next t ∧ Ending i s t := by
  cases i with
  | ldrs imm =>
    refine ⟨_, rfl, ?_⟩
    cases hc : statCalv s.stat
    · by_cases hv : imm = 0#16
      · simp [hv, Ending.invalid]
      · simp [hv, unlessRaise, Ending.calibrated _ rfl hv hc]
    · simp [Ending.calLocked _ hc]
  | ldp k imm =>
    by_cases hk : k.toNat ≤ 5
    · exact ⟨_, by simp [exec, execLdp, paramIndex_of_le hk], .loaded k imm rfl (by omega)⟩
    · exact ⟨_, by simp [exec, execLdp, paramIndex_of_gt hk], .illegal (encode (.ldp k imm))⟩
  | clre => exact ⟨_, rfl, .cleared rfl⟩
  | cvolt imm | cpct imm | ctemp imm | ctime imm | etemp imm | vvth imm | unpk imm | unpks imm | dvth imm =>
    exact ⟨_, rfl, .result _ _ rfl⟩
  | ccap imm | ccur imm =>
    refine ⟨_, rfl, ?_⟩
    rcases divideByRsense_cases _ imm s with ⟨_, h⟩ | ⟨hc, h⟩ <;> rw [h]
    · exact .result _ _ rfl
    · exact .notCalibrated _ hc
  | cvthb imm | evthb imm =>
    refine ⟨_, rfl, ?_⟩
    rcases unlessRaise_cases _ _ _ s _ with ⟨_, h⟩ | ⟨_, h⟩ <;> rw [h]
    · exact .result _ _ rfl
    · exact .invalid _
  | pcfg =>
    refine ⟨_, rfl, ?_⟩
    rcases encodeConfig_cases Config.masks s with ⟨_, h⟩ | h <;> rw [h]
    · exact .invalid _
    · exact .result _ _ rfl
  | evth | pack | packs =>
    refine ⟨_, rfl, ?_⟩
    rcases encodePair_cases _ _ _ s with ⟨_, h⟩ | ⟨_, _, h⟩ | ⟨_, _, h⟩ <;> rw [h]
    · exact .invalid _
    · exact .invalid _
    · exact .result _ _ rfl

end Sys2Proof.Machine
end

