-- ==== Sys2Proof/Laws/Command.lean ====
section
/-! SUPPORT. Running command words: what one word can do, and a list of words one after the other (spec/10_state.md R20, R21). -/

namespace Sys2Proof.Machine

/-- A legal word runs the command it decodes to. -/
theorem runCommand_of_decode {w : Word} {i : Instr} (h : decode w = .ok i) (s : State) : runCommand w s = exec i s := by
  unfold runCommand; rw [h]

/-- An illegal word takes IllegalCommand with the word as payload (spec/60_exceptions.md R105). -/
theorem runCommand_of_error {w : Word} {e : DecodeError} (h : decode w = .error e) (s : State) :
    runCommand w s = .next (raise .illegalCommand w s) := by
  unfold runCommand; rw [h]

/-- A word either runs a command or takes IllegalCommand; either way there is a next state, ended in one of the ways of `Ending`. -/
theorem runCommand_ending (w : Word) (s : State) :
    (∃ i t, decode w = .ok i ∧ runCommand w s = .next t ∧ exec i s = .next t ∧ Ending i s t) ∨
    (∃ e, decode w = .error e ∧ runCommand w s = .next (raise .illegalCommand w s)) := by
  cases h : decode w with
  | ok i =>
    obtain ⟨t, ht, e⟩ := exec_ending i s
    exact .inl ⟨i, t, rfl, (runCommand_of_decode h s).trans ht, ht, e⟩
  | error e => exact .inr ⟨e, rfl, runCommand_of_error h s⟩

/-- No words: nothing happens. -/
theorem runCommands_nil (s : State) : runCommands [] s = .next s := rfl

/-- The first word, then the rest from the state it leaves. -/
theorem runCommands_cons {w : Word} {s t : State} (h : runCommand w s = .next t) (ws : List Word) :
    runCommands (w :: ws) s = runCommands ws t := by
  simp only [runCommands, h]

/-- One word alone. -/
theorem runCommands_singleton (w : Word) (s : State) : runCommands [w] s = runCommand w s := by
  simp only [runCommands]
  cases runCommand w s <;> rfl

end Sys2Proof.Machine
end

