-- ==== Sys2Proof/Laws/Config.lean ====
section
/-! SUPPORT. The masks that an assignment of bits to fields gives, bit by bit, and the constraint R6 of spec/00_scope.md on them. -/

namespace Sys2Proof.Config

/-- Bit by bit, the mask of a field: the bits from 5 up that the field owns. -/
theorem getLsbD_maskOf (owner : Nat → Option EnumField) (f : EnumField) (i : Nat) :
    (maskOf owner f).getLsbD i = (decide (i < 16) && (decide (5 ≤ i) && decide (owner i = some f))) := by
  unfold maskOf
  rw [BitVec.getLsbD_ofFnLE]
  split <;> simp_all

/-- The count bits are bits 4:0 (R6). -/
theorem getLsbD_countBits (i : Nat) : countBits.getLsbD i = decide (i < 5) := by
  rcases Nat.lt_or_ge i 16 with h | h
  · revert i; decide
  · rw [BitVec.getLsbD_of_ge _ _ h, decide_eq_false (by omega)]

/-- No mask has a bit among the count bits (R6). -/
theorem maskOf_and_countBits (owner : Nat → Option EnumField) (f : EnumField) : maskOf owner f &&& countBits = 0#16 := by
  apply BitVec.eq_of_getLsbD_eq
  intro i hi
  rw [BitVec.getLsbD_and, getLsbD_maskOf, getLsbD_countBits]
  by_cases h : i < 5
  · simp [show ¬ 5 ≤ i by omega]
  · simp [h]

/-- The masks of two fields have no bit in common (R6). -/
theorem maskOf_and_maskOf (owner : Nat → Option EnumField) {f g : EnumField} (h : f ≠ g) :
    maskOf owner f &&& maskOf owner g = 0#16 := by
  apply BitVec.eq_of_getLsbD_eq
  intro i hi
  rw [BitVec.getLsbD_and, getLsbD_maskOf, getLsbD_maskOf]
  by_cases hf : owner i = some f
  · simp [hf, h]
  · simp [hf]

/-- Bit 0 lies outside every enumerant's mask (R6): an enumerant with bit 0 set is refused whatever the masks are. -/
theorem bit_0_outside (owner : Nat → Option EnumField) (f : EnumField) : 0x0001#16 &&& ~~~maskOf owner f ≠ 0#16 := by
  intro h
  have := congrArg (fun v => v.getLsbD 0) h
  have bit := getLsbD_maskOf owner f 0
  simp only [BitVec.getLsbD_and, BitVec.getLsbD_not, bit] at this
  exact Bool.noConfusion this

end Sys2Proof.Config
end

