-- ==== Sys2Proof/Laws/Decode.lean ====
section
/-! SUPPORT. Reading the fields of a command word back from `cat(opc, sel, imm)` (spec/30_encoding.md R45, R53), and what each format
accepts (R46, R47, R48). -/

namespace Sys2Proof

variable (opc sel : BitVec 8) (imm : Half)

/-- Bit by bit, what a command word holds. -/
theorem getLsbD_commandWord (i : Nat) :
    (commandWord opc sel imm).getLsbD i =
      if i < 16 then imm.getLsbD i else if i < 24 then sel.getLsbD (i - 16) else opc.getLsbD (i - 24) := by
  have h : (commandWord opc sel imm).getLsbD i = BitVec.getLsbD (w := 8 + 8 + 16) (opc ++ sel ++ imm) i := rfl
  rw [h, BitVec.getLsbD_append, BitVec.getLsbD_append]
  have e : i - 16 - 8 = i - 24 := by omega
  have h24 : (i - 16 < 8) = (i < 24 ∧ True) ∨ i < 16 := by
    by_cases hi : i < 16
    · exact .inr hi
    · refine .inl (propext ⟨fun _ => ⟨by omega, trivial⟩, fun ⟨_, _⟩ => by omega⟩)
  by_cases hi : i < 16
  · simp [hi]
  · rcases h24 with h24 | h24
    · simp [hi, h24, e]
    · exact absurd h24 hi

@[simp] theorem cmdImm_commandWord : cmdImm (commandWord opc sel imm) = imm := by
  apply BitVec.eq_of_getLsbD_eq
  intro i hi
  simp [cmdImm, getLsbD_commandWord, hi]

@[simp] theorem cmdSel_commandWord : cmdSel (commandWord opc sel imm) = sel := by
  apply BitVec.eq_of_getLsbD_eq
  intro i hi
  have h1 : ¬ 16 + i < 16 := by omega
  have h2 : 16 + i < 24 := by omega
  simp [cmdSel, getLsbD_commandWord, hi, h2]

@[simp] theorem cmdOpc_commandWord : cmdOpc (commandWord opc sel imm) = opc := by
  apply BitVec.eq_of_getLsbD_eq
  intro i hi
  have h1 : ¬ 24 + i < 16 := by omega
  simp [cmdOpc, getLsbD_commandWord, hi, h1]

/-- `cmd[23:19]` and `cmd[18:16]` are the two parts of the selector (R47). -/
theorem cmdSel_eq_append (w : Word) : cmdSel w = cmdReservedP w ++ cmdParam w := by
  apply BitVec.eq_of_getLsbD_eq
  intro i hi
  rw [BitVec.getLsbD_append]
  simp only [cmdSel, cmdReservedP, cmdParam, BitVec.getLsbD_extractLsb']
  by_cases h3 : i < 3
  · simp [h3, hi]
  · have h5 : i - 3 < 5 := by omega
    have e : 19 + (i - 3) = 16 + i := by omega
    simp [h3, h5, hi, e]

/-- The selector of an LDP word holds the parameter number in its low bits (R47). -/
theorem getLsbD_paramSelector (k : BitVec 3) (i : Nat) : (0#5 ++ k : BitVec 8).getLsbD i = k.getLsbD i := by
  have h : (0#5 ++ k : BitVec 8).getLsbD i = BitVec.getLsbD (w := 5 + 3) (0#5 ++ k) i := rfl
  rw [h, BitVec.getLsbD_append]
  by_cases h3 : i < 3
  · simp [h3]
  · simp [h3, BitVec.getLsbD_of_ge k i (by omega)]

/-- The parameter number of an LDP word (R47). -/
@[simp] theorem cmdParam_ldp (k : BitVec 3) : cmdParam (commandWord opc (0#5 ++ k) imm) = k := by
  apply BitVec.eq_of_getLsbD_eq
  intro i hi
  simp [cmdParam, getLsbD_commandWord, getLsbD_paramSelector, hi, show 16 + i < 24 by omega]

/-- The reserved bits of an LDP word are zero (R47). -/
@[simp] theorem cmdReservedP_ldp (k : BitVec 3) : cmdReservedP (commandWord opc (0#5 ++ k) imm) = 0#5 := by
  apply BitVec.eq_of_getLsbD_eq
  intro i hi
  have h1 : ¬ 19 + i < 16 := by omega
  have h2 : 19 + i < 24 := by omega
  simp [cmdReservedP, getLsbD_commandWord, getLsbD_paramSelector, h1, h2, BitVec.getLsbD_of_ge k (19 + i - 16) (by omega)]

/-- A command word is its three fields (R45). -/
theorem commandWord_eta (w : Word) : commandWord (cmdOpc w) (cmdSel w) (cmdImm w) = w := by
  apply BitVec.eq_of_getLsbD_eq
  intro i hi
  rw [getLsbD_commandWord]
  by_cases h16 : i < 16
  · simp [h16, cmdImm]
  · by_cases h24 : i < 24
    · have h8 : i - 16 < 8 := by omega
      have e : 16 + (i - 16) = i := by omega
      simp [h16, h24, cmdSel, h8, e]
    · have h8 : i - 24 < 8 := by omega
      have e : 24 + (i - 24) = i := by omega
      simp [h16, h24, cmdOpc, h8, e]

/-- Format I accepts exactly the words whose selector is zero (R46). -/
theorem formatI_ok_iff (w : Word) (command : Half → Instr) (i : Instr) :
    formatI w command = .ok i ↔ cmdSel w = 0#8 ∧ i = command (cmdImm w) := by
  unfold formatI
  split <;> simp_all [eq_comm]

/-- Format P accepts exactly the words whose reserved bits are zero and whose parameter number is at most 5 (R47). -/
theorem formatP_ok_iff (w : Word) (command : BitVec 3 → Half → Instr) (i : Instr) :
    formatP w command = .ok i ↔
      (cmdReservedP w = 0#5 ∧ (cmdParam w).toNat ≤ 5) ∧ i = command (cmdParam w) (cmdImm w) := by
  unfold formatP
  split <;> simp_all [eq_comm]

/-- Format N accepts exactly the words whose low 24 bits are zero (R48). -/
theorem formatN_ok_iff (w : Word) (command i : Instr) :
    formatN w command = .ok i ↔ (cmdSel w = 0#8 ∧ cmdImm w = 0#16) ∧ i = command := by
  unfold formatN
  split <;> simp_all [eq_comm]

end Sys2Proof
end

