-- ==== Sys2Proof/Laws/PerInstr.lean ====
section
/-! SUPPORT. A fact about every command as text, one lemma per constructor: its word matches its own row of the opcode map. -/

namespace Sys2Proof.Laws

/-- The mask of a format I row keeps the opcode and the selector and drops the immediate (spec/30_encoding.md R46). -/
theorem commandWord_and_maskI (opc sel : BitVec 8) (imm : Half) :
    commandWord opc sel imm &&& 0xFFFF0000#32 = commandWord opc sel 0#16 := by
  apply BitVec.eq_of_getLsbD_eq
  intro i hi
  rw [BitVec.getLsbD_and, getLsbD_commandWord, getLsbD_commandWord]
  have hm : (0xFFFF0000#32).getLsbD i = decide (16 ≤ i) := by revert i; decide
  rw [hm]
  by_cases h : i < 16
  · simp [h]
  · simp [h, show 16 ≤ i by omega]

/-- The mask of the format P row keeps the opcode and the reserved bits of the selector (spec/30_encoding.md R47). -/
theorem commandWord_and_maskP (opc : BitVec 8) (k : BitVec 3) (imm : Half) :
    commandWord opc (0#5 ++ k) imm &&& 0xFFF80000#32 = commandWord opc 0#8 0#16 := by
  apply BitVec.eq_of_getLsbD_eq
  intro i hi
  rw [BitVec.getLsbD_and, getLsbD_commandWord, getLsbD_commandWord]
  have hm : (0xFFF80000#32).getLsbD i = decide (19 ≤ i) := by revert i; decide
  rw [hm]
  by_cases h : i < 16
  · simp [h, show ¬ 19 ≤ i by omega]
  · by_cases h19 : i < 19
    · simp [h, show i < 24 by omega, show ¬ 19 ≤ i by omega]
    · by_cases h24 : i < 24
      · simp [h, h24, getLsbD_paramSelector, BitVec.getLsbD_of_ge k (i - 16) (by omega)]
      · simp [h, h24, show 19 ≤ i by omega]

end Sys2Proof.Laws

namespace Sys2Proof.Laws.EncodesInOwnRow

/-- The word of a well-formed command is accepted by the row of the opcode map that bears its mnemonic (spec/30_encoding.md R50). -/
def Statement (i : Instr) : Prop :=
  i.wellFormed = true → ∃ r ∈ opcodeMap, r.mnemonic = mnemonicOf i ∧ r.accepts (encode i) = true

/-- A format I command, its row and its opcode. -/
theorem formatI_row {i : Instr} {r : OpcodeRow} {opc : BitVec 8} {imm : Half} (hr : r ∈ opcodeMap)
    (hm : r.mnemonic = mnemonicOf i) (hmask : r.mask = 0xFFFF0000#32) (hpat : r.pattern = commandWord opc 0#8 0#16)
    (hldp : (r.mnemonic != "LDP") = true) (he : encode i = commandWord opc 0#8 imm) : Statement i := by
  intro _
  refine ⟨r, hr, hm, ?_⟩
  simp only [OpcodeRow.accepts, he, hmask, hpat, hldp, commandWord_and_maskI, beq_self_eq_true, Bool.true_or, Bool.and_self]

theorem ldrs (imm : Half) : Statement (.ldrs imm) :=
  formatI_row (r := ⟨"LDRS", 0x01000000#32, 0xFFFF0000#32⟩) (by decide) rfl rfl rfl (by decide) rfl

theorem ldp (k : BitVec 3) (imm : Half) : Statement (.ldp k imm) := by
  intro h
  have hk : k.toNat ≤ 5 := of_decide_eq_true h
  refine ⟨⟨"LDP", 0x02000000#32, 0xFFF80000#32⟩, by decide, rfl, ?_⟩
  simp only [OpcodeRow.accepts, encode, commandWord_and_maskP, cmdParam_ldp, hk]
  decide

theorem clre : Statement .clre := fun _ => ⟨⟨"CLRE", 0x03000000#32, 0xFFFFFFFF#32⟩, by decide, rfl, by decide⟩

theorem cvolt (imm : Half) : Statement (.cvolt imm) :=
  formatI_row (r := ⟨"CVOLT", 0x10000000#32, 0xFFFF0000#32⟩) (by decide) rfl rfl rfl (by decide) rfl

theorem cpct (imm : Half) : Statement (.cpct imm) :=
  formatI_row (r := ⟨"CPCT", 0x11000000#32, 0xFFFF0000#32⟩) (by decide) rfl rfl rfl (by decide) rfl

theorem ctemp (imm : Half) : Statement (.ctemp imm) :=
  formatI_row (r := ⟨"CTEMP", 0x12000000#32, 0xFFFF0000#32⟩) (by decide) rfl rfl rfl (by decide) rfl

theorem ccap (imm : Half) : Statement (.ccap imm) :=
  formatI_row (r := ⟨"CCAP", 0x13000000#32, 0xFFFF0000#32⟩) (by decide) rfl rfl rfl (by decide) rfl

theorem ccur (imm : Half) : Statement (.ccur imm) :=
  formatI_row (r := ⟨"CCUR", 0x14000000#32, 0xFFFF0000#32⟩) (by decide) rfl rfl rfl (by decide) rfl

theorem ctime (imm : Half) : Statement (.ctime imm) :=
  formatI_row (r := ⟨"CTIME", 0x15000000#32, 0xFFFF0000#32⟩) (by decide) rfl rfl rfl (by decide) rfl

theorem cvthb (imm : Half) : Statement (.cvthb imm) :=
  formatI_row (r := ⟨"CVTHB", 0x16000000#32, 0xFFFF0000#32⟩) (by decide) rfl rfl rfl (by decide) rfl

theorem etemp (imm : Half) : Statement (.etemp imm) :=
  formatI_row (r := ⟨"ETEMP", 0x17000000#32, 0xFFFF0000#32⟩) (by decide) rfl rfl rfl (by decide) rfl

theorem pcfg : Statement .pcfg := fun _ => ⟨⟨"PCFG", 0x20000000#32, 0xFFFFFFFF#32⟩, by decide, rfl, by decide⟩

theorem vvth (imm : Half) : Statement (.vvth imm) :=
  formatI_row (r := ⟨"VVTH", 0x30000000#32, 0xFFFF0000#32⟩) (by decide) rfl rfl rfl (by decide) rfl

theorem evthb (imm : Half) : Statement (.evthb imm) :=
  formatI_row (r := ⟨"EVTHB", 0x31000000#32, 0xFFFF0000#32⟩) (by decide) rfl rfl rfl (by decide) rfl

theorem evth : Statement .evth := fun _ => ⟨⟨"EVTH", 0x32000000#32, 0xFFFFFFFF#32⟩, by decide, rfl, by decide⟩

theorem pack : Statement .pack := fun _ => ⟨⟨"PACK", 0x33000000#32, 0xFFFFFFFF#32⟩, by decide, rfl, by decide⟩

theorem packs : Statement .packs := fun _ => ⟨⟨"PACKS", 0x34000000#32, 0xFFFFFFFF#32⟩, by decide, rfl, by decide⟩

theorem unpk (imm : Half) : Statement (.unpk imm) :=
  formatI_row (r := ⟨"UNPK", 0x35000000#32, 0xFFFF0000#32⟩) (by decide) rfl rfl rfl (by decide) rfl

theorem unpks (imm : Half) : Statement (.unpks imm) :=
  formatI_row (r := ⟨"UNPKS", 0x36000000#32, 0xFFFF0000#32⟩) (by decide) rfl rfl rfl (by decide) rfl

theorem dvth (imm : Half) : Statement (.dvth imm) :=
  formatI_row (r := ⟨"DVTH", 0x37000000#32, 0xFFFF0000#32⟩) (by decide) rfl rfl rfl (by decide) rfl

end Sys2Proof.Laws.EncodesInOwnRow
end

