-- ==== Sys2Proof/Laws/Port.lean ====
section
/-! SUPPORT. What one clock edge can do, said once (spec/10_state.md R19; spec/70_reset_and_hazards.md R120, R121). -/

namespace Sys2Proof.Machine

/-- Reset wins at an edge with `rst = 1`. -/
theorem step_of_rst {s : State} (h : s.input.rst = true) : step s = .next (resetBlock s.tick) := by
  simp [step, clockEdge, h]

/-- A ready port without a valid command idles. -/
theorem step_of_idle {s : State} (hr : s.input.rst = false) (hf : s.inFlight = none) (hv : s.input.cmdValid = false) :
    step s = .next s.tick := by
  simp [step, clockEdge, hr, hf, hv]

/-- A ready port accepts a valid command. -/
theorem step_of_accept {s : State} (hr : s.input.rst = false) (hf : s.inFlight = none) (hv : s.input.cmdValid = true) :
    step s = .next { s.tick with inFlight := some ⟨s.input.cmdWord, s.input.extraEdges⟩ } := by
  simp [step, clockEdge, hr, hf, hv]

/-- A command in flight that is not due waits. -/
theorem step_of_wait {s : State} {w : Word} {n : Nat} (hr : s.input.rst = false) (hf : s.inFlight = some ⟨w, n + 1⟩) :
    step s = .next { s.tick with inFlight := some ⟨w, n⟩ } := by
  simp [step, clockEdge, hr, hf]

/-- A command in flight that is due executes. -/
theorem step_of_due {s : State} {w : Word} (hr : s.input.rst = false) (hf : s.inFlight = some ⟨w, 0⟩) :
    step s = runCommand w { s.tick with inFlight := none, rspValid := true } := by
  simp [step, clockEdge, hr, hf]

/-- The five things an edge can do. -/
theorem step_cases (s : State) :
    (s.input.rst = true ∧ step s = .next (resetBlock s.tick)) ∨
    (s.input.rst = false ∧ s.inFlight = none ∧ s.input.cmdValid = false ∧ step s = .next s.tick) ∨
    (s.input.rst = false ∧ s.inFlight = none ∧ s.input.cmdValid = true ∧
      step s = .next { s.tick with inFlight := some ⟨s.input.cmdWord, s.input.extraEdges⟩ }) ∨
    (∃ w n, s.input.rst = false ∧ s.inFlight = some ⟨w, n + 1⟩ ∧ step s = .next { s.tick with inFlight := some ⟨w, n⟩ }) ∨
    (∃ w, s.input.rst = false ∧ s.inFlight = some ⟨w, 0⟩ ∧
      step s = runCommand w { s.tick with inFlight := none, rspValid := true }) := by
  cases hr : s.input.rst
  · cases hf : s.inFlight with
    | none =>
      cases hv : s.input.cmdValid
      · exact .inr (.inl ⟨rfl, rfl, rfl, step_of_idle hr hf hv⟩)
      · exact .inr (.inr (.inl ⟨rfl, rfl, rfl, step_of_accept hr hf hv⟩))
    | some c =>
      obtain ⟨w, _ | n⟩ := c
      · exact .inr (.inr (.inr (.inr ⟨w, rfl, rfl, step_of_due hr hf⟩)))
      · exact .inr (.inr (.inr (.inl ⟨w, n, rfl, rfl, step_of_wait hr hf⟩)))
  · exact .inl ⟨rfl, step_of_rst hr⟩

end Sys2Proof.Machine
end

