-- ==== Sys2Proof/Laws/Safety.lean ====
section
/-! SUPPORT. The three outcomes of a command meet what spec/60_exceptions.md R100 and R101 say of them. -/

namespace Sys2Proof.Machine

/-- R100 for `done_result`. -/
theorem resultAfter_doneResult (r a : Word) (s : State) : ResultAfter r a s (doneResult r a s) :=
  { res := rfl, aux := rfl, errval := rfl, err := by simp, rv := by simp, se := by simp, calv := by simp, reserved := by simp
    p := rfl, rsense := rfl, port := ⟨rfl, rfl, rfl⟩ }

/-- R101 for `raise`. -/
theorem failureAfter_raise (e : Cause) (info : Word) (s : State) : FailureAfter e info s (raise e info s) :=
  { err := by simp, errval := rfl, se := by simp, rv := by simp, res := rfl, aux := rfl, calv := by simp, reserved := by simp
    p := rfl, rsense := rfl, port := ⟨rfl, rfl, rfl⟩ }

/-- R100 for `done()` after LDP's write. -/
theorem housekeepingAfter_load (s : State) (k : Fin 6) (v : Half) :
    HousekeepingAfter s (doneHousekeeping (s.withParam k v)) :=
  { err := by simp, errval := rfl, res := rfl, aux := rfl, rv := by simp, reserved := by simp, port := ⟨rfl, rfl, rfl⟩ }

/-- R100 for `done()` after LDRS's writes. -/
theorem housekeepingAfter_calibrate (s : State) (v : Half) : HousekeepingAfter s (doneHousekeeping (s.calibrate v)) :=
  { err := by simp, errval := rfl, res := rfl, aux := rfl, rv := by simp, reserved := by simp, port := ⟨rfl, rfl, rfl⟩ }

/-- R100 for `done()` after CLRE's write. -/
theorem housekeepingAfter_clear (s : State) :
    HousekeepingAfter s (doneHousekeeping { s with stat := statWithSe s.stat false }) :=
  { err := by simp, errval := rfl, res := rfl, aux := rfl, rv := by simp, reserved := by simp, port := ⟨rfl, rfl, rfl⟩ }

end Sys2Proof.Machine
end

