-- ==== Sys2Proof/Tests/Slice0.lean ====
section
/-! SUPPORT. The model's own tests: the check of well-formedness, words written out from spec/30_encoding.md, one step at a time from
spec/95_test_vectors.md, the clock edge, and for every statement with hypotheses a witness that something meets them. -/

namespace Sys2Proof.Machine.Tests

/- ==== well-formedness: 30_encoding.md R47, R50 ==== -/

theorem test_ldp_5_is_well_formed : (Instr.ldp 5#3 0xFFFF#16).wellFormed = true := by decide
theorem test_ldp_6_is_refused : (Instr.ldp 6#3 0x0000#16).wellFormed = false := by decide
theorem test_ldp_7_is_refused : (Instr.ldp 7#3 0x0001#16).wellFormed = false := by decide

/- ==== decoding: the words of 30_encoding.md section 3 and of 95_test_vectors.md, one for each row ==== -/

/-- What a word decodes to, or none. -/
def decoded (w : Word) : Option Instr :=
  match decode w with
  | .ok i => some i
  | .error _ => none

/-- Under which name a word is rejected, if it is. -/
def rejected (w : Word) : Option DecodeError :=
  match decode w with
  | .ok _ => none
  | .error e => some e

theorem test_decode_ldrs : decoded 0x0100000A#32 = some (.ldrs 10#16) := by decide
theorem test_decode_ldp : decoded 0x02010FA0#32 = some (.ldp 1#3 4000#16) := by decide
theorem test_decode_ldp_k5 : decoded 0x0205FFFF#32 = some (.ldp 5#3 0xFFFF#16) := by decide
theorem test_decode_clre : decoded 0x03000000#32 = some (.clre) := by decide
theorem test_decode_cvolt : decoded 0x1000A000#32 = some (.cvolt 0xA000#16) := by decide
theorem test_decode_cpct : decoded 0x11003200#32 = some (.cpct 0x3200#16) := by decide
theorem test_decode_ctemp : decoded 0x12008000#32 = some (.ctemp 0x8000#16) := by decide
theorem test_decode_ccap : decoded 0x13001388#32 = some (.ccap 5000#16) := by decide
theorem test_decode_ccur : decoded 0x1400FC18#32 = some (.ccur 0xFC18#16) := by decide
theorem test_decode_ctime : decoded 0x15000280#32 = some (.ctime 640#16) := by decide
theorem test_decode_cvthb : decoded 0x160000FF#32 = some (.cvthb 0x00FF#16) := by decide
theorem test_decode_etemp : decoded 0x1700F600#32 = some (.etemp 0xF600#16) := by decide
theorem test_decode_pcfg : decoded 0x20000000#32 = some (.pcfg) := by decide
theorem test_decode_vvth : decoded 0x3000FFEC#32 = some (.vvth 0xFFEC#16) := by decide
theorem test_decode_evthb : decoded 0x31000FA0#32 = some (.evthb 4000#16) := by decide
theorem test_decode_evth : decoded 0x32000000#32 = some (.evth) := by decide
theorem test_decode_pack : decoded 0x33000000#32 = some (.pack) := by decide
theorem test_decode_packs : decoded 0x34000000#32 = some (.packs) := by decide
theorem test_decode_unpk : decoded 0x35005A0A#32 = some (.unpk 0x5A0A#16) := by decide
theorem test_decode_unpks : decoded 0x36003CEC#32 = some (.unpks 0x3CEC#16) := by decide
theorem test_decode_dvth : decoded 0x3700C832#32 = some (.dvth 0xC832#16) := by decide

/-- The host's numbering of the table's bits: 32 bits, and nothing above them. -/
theorem test_table_word_ccur : decodeTableWord 32 0x1400FC18 = some (.ccur 0xFC18#16) := by decide
theorem test_table_word_evth : decodeTableWord 32 0x32000000 = some .evth := by decide

/- The illegal words of 95_test_vectors.md section 2.9, by the case of R50 that makes each illegal. -/

theorem test_illegal_zero : rejected 0x00000000#32 = some .unknownOpcode := by decide
theorem test_illegal_ones : rejected 0xFFFFFFFF#32 = some .unknownOpcode := by decide
theorem test_illegal_opcode_04 : rejected 0x04000000#32 = some .unknownOpcode := by decide
theorem test_illegal_opcode_18 : rejected 0x18000000#32 = some .unknownOpcode := by decide
theorem test_illegal_opcode_21 : rejected 0x21000000#32 = some .unknownOpcode := by decide
theorem test_illegal_opcode_38 : rejected 0x38000000#32 = some .unknownOpcode := by decide
theorem test_illegal_cvolt_selector : rejected 0x10010000#32 = some .reservedSelector := by decide
theorem test_illegal_ldrs_selector : rejected 0x0180000A#32 = some .reservedSelector := by decide
theorem test_illegal_ldp_k6 : rejected 0x02060001#32 = some .badParameter := by decide
theorem test_illegal_ldp_k7 : rejected 0x02070000#32 = some .badParameter := by decide
theorem test_illegal_ldp_bit_19 : rejected 0x02080000#32 = some .badParameter := by decide
theorem test_illegal_ldp_bit_23 : rejected 0x02800000#32 = some .badParameter := by decide
theorem test_illegal_pcfg_operand : rejected 0x20000001#32 = some .reservedOperand := by decide
theorem test_illegal_clre_selector : rejected 0x03010000#32 = some .reservedOperand := by decide
theorem test_illegal_evth_operand : rejected 0x3200C832#32 = some .reservedOperand := by decide

/- ==== one command at a time: 95_test_vectors.md section 2 ==== -/

/-- What the host sees after a command: RES, AUX, STAT, ERRVAL (10_state.md R21). -/
def seen : Host.Outcome State Fault Refusal → Option (Word × Word × Half × Word)
  | .next t => some (t.res, t.aux, t.stat, t.errval)
  | .fault _ => none
  | .refused _ => none

/-- The reset state after one successful `LDRS r`. -/
def calibrated (r : Half) : State := { State.reset with rsense := r, stat := 0x0010#16 }

/-- The reset state after parameter loads. -/
def loaded (p0 p1 p2 p3 p4 p5 : Half) : State := { State.reset with p := #v[p0, p1, p2, p3, p4, p5] }

/-- The reset state after loads of `P[0]` and `P[1]`. -/
def loadedPair (p0 p1 : Half) : State := loaded p0 p1 0#16 0#16 0#16 0#16

/-- PCFG with `CFG_EX` (00_scope.md section 4). -/
def exampleConfig (s : State) : Option (Word × Word × Half × Word) := seen (.next (encodeConfig Config.exampleMasks s))

theorem test_example_masks_meet_r6 : Config.exampleMasks.wf := by decide

theorem test_cvolt_largest :
    seen (runCommand 0x1000FFFF#32 State.reset) = some (0x0270FD8F#32, 0x00000000#32, 0x0008#16, 0x00000000#32) := by decide
theorem test_cvolt_bit_15_is_magnitude :
    seen (runCommand 0x10008000#32 State.reset) = some (0x01388000#32, 0x00000000#32, 0x0008#16, 0x00000000#32) := by decide
theorem test_cpct_not_clipped :
    seen (runCommand 0x1100FFFF#32 State.reset) = some (0x0000FFFF#32, 0x00000000#32, 0x0008#16, 0x00000000#32) := by decide
theorem test_ctemp_most_negative :
    seen (runCommand 0x12008000#32 State.reset) = some (0xFFFF8000#32, 0x00000000#32, 0x0008#16, 0x00000000#32) := by decide
theorem test_ctemp_most_positive :
    seen (runCommand 0x12007FFF#32 State.reset) = some (0x00007FFF#32, 0x00000000#32, 0x0008#16, 0x00000000#32) := by decide
theorem test_ctime_largest :
    seen (runCommand 0x1500FFFF#32 State.reset) = some (0x002CFFD3#32, 0x00000000#32, 0x0008#16, 0x00000000#32) := by decide
theorem test_cvthb_top_byte :
    seen (runCommand 0x160000FF#32 State.reset) = some (0x000013EC#32, 0x00000000#32, 0x0008#16, 0x00000000#32) := by decide
theorem test_cvthb_not_a_byte :
    seen (runCommand 0x16000100#32 State.reset) = some (0x00000000#32, 0x00000000#32, 0x0021#16, 0x00000100#32) := by decide
theorem test_etemp_is_a_pattern :
    seen (runCommand 0x1700F600#32 State.reset) = some (0x0000F600#32, 0x00000000#32, 0x0008#16, 0x00000000#32) := by decide
theorem test_ccap_remainder :
    seen (runCommand 0x1300FFFF#32 (calibrated 7#16)) = some (0x02CA465A#32, 0x00000002#32, 0x0018#16, 0x00000000#32) := by decide
theorem test_ccap_not_calibrated :
    seen (runCommand 0x13001388#32 State.reset) = some (0x00000000#32, 0x00000000#32, 0x0023#16, 0x00001388#32) := by decide
theorem test_ccur_truncates_toward_zero :
    seen (runCommand 0x1400FFFF#32 (calibrated 10#16)) = some (0xFFFFF9E6#32, 0xFFFFFFFB#32, 0x0018#16, 0x00000000#32) := by decide
theorem test_ccur_largest_divisor :
    seen (runCommand 0x14008000#32 (calibrated 65535#16)) = some (0xFFFFE17C#32, 0xFFFF617C#32, 0x0018#16, 0x00000000#32) := by decide
theorem test_vvth_top_is_valid :
    seen (runCommand 0x300013EC#32 State.reset) = some (0x00000001#32, 0x00000000#32, 0x0008#16, 0x00000000#32) := by decide
theorem test_vvth_negative_is_an_answer :
    seen (runCommand 0x3000FFEC#32 State.reset) = some (0x00000000#32, 0x00000000#32, 0x0008#16, 0x00000000#32) := by decide
theorem test_evthb_top :
    seen (runCommand 0x310013EC#32 State.reset) = some (0x000000FF#32, 0x00000000#32, 0x0008#16, 0x00000000#32) := by decide
theorem test_evthb_negative :
    seen (runCommand 0x3100FFEC#32 State.reset) = some (0x00000000#32, 0x00000000#32, 0x0021#16, 0xFFFFFFEC#32) := by decide
theorem test_evth_source_pair :
    seen (runCommand 0x32000000#32 (loadedPair 1000#16 4000#16)) = some (0x0000C832#32, 0x00000000#32, 0x0008#16, 0x00000000#32) := by decide
theorem test_evth_both_bad :
    seen (runCommand 0x32000000#32 (loadedPair 0x03F2#16 0x1400#16)) = some (0x00000000#32, 0x00000000#32, 0x0021#16, 0x000003F2#32) := by decide
theorem test_pack_pair :
    seen (runCommand 0x33000000#32 (loadedPair 0x000A#16 0x005A#16)) = some (0x00005A0A#32, 0x00000000#32, 0x0008#16, 0x00000000#32) := by decide
theorem test_pack_reads_unsigned :
    seen (runCommand 0x33000000#32 (loadedPair 0xFFEC#16 0x003C#16)) = some (0x00000000#32, 0x00000000#32, 0x0021#16, 0x0000FFEC#32) := by decide
theorem test_packs_extremes :
    seen (runCommand 0x34000000#32 (loadedPair 0xFF80#16 0x007F#16)) = some (0x00007F80#32, 0x00000000#32, 0x0008#16, 0x00000000#32) := by decide
theorem test_packs_below_a_byte :
    seen (runCommand 0x34000000#32 (loadedPair 0xFF7F#16 0x0000#16)) = some (0x00000000#32, 0x00000000#32, 0x0021#16, 0xFFFFFF7F#32) := by decide
theorem test_unpk_maximum_in_res :
    seen (runCommand 0x350000FF#32 State.reset) = some (0x00000000#32, 0x000000FF#32, 0x0008#16, 0x00000000#32) := by decide
theorem test_unpks_signs :
    seen (runCommand 0x360080FF#32 State.reset) = some (0xFFFFFF80#32, 0xFFFFFFFF#32, 0x0008#16, 0x00000000#32) := by decide
theorem test_dvth_source_pair :
    seen (runCommand 0x3700C832#32 State.reset) = some (0x00000FA0#32, 0x000003E8#32, 0x0008#16, 0x00000000#32) := by decide
theorem test_dvth_inverted_pair :
    seen (runCommand 0x370000FF#32 State.reset) = some (0x00000000#32, 0x000013EC#32, 0x0008#16, 0x00000000#32) := by decide
theorem test_ldrs_locked_before_zero :
    seen (runCommand 0x01000000#32 (calibrated 5#16)) = some (0x00000000#32, 0x00000000#32, 0x0034#16, 0x00000000#32) := by decide
theorem test_clre_keeps_result_and_calibration :
    seen (runCommand 0x03000000#32 { calibrated 5#16 with res := 0x1234#32, stat := 0x0038#16 }) = some (0x00001234#32, 0x00000000#32, 0x0018#16, 0x00000000#32) := by decide
theorem test_illegal_word_destroys_the_result :
    seen (runCommand 0x02060001#32 { calibrated 5#16 with res := 0xFFFFF3CB#32, stat := 0x0038#16 }) = some (0x00000000#32, 0x00000000#32, 0x0032#16, 0x02060001#32) := by decide
theorem test_pcfg_every_field_at_its_largest :
    exampleConfig (loaded 0x0004#16 0x0004#16 0x0020#16 0x00C0#16 0x0300#16 0x0C00#16) =
      some (0x00000FF2#32, 0x00000000#32, 0x0008#16, 0x00000000#32) := by decide
theorem test_pcfg_reports_the_first_bad_input :
    exampleConfig (loaded 0x0002#16 0x0005#16 0x0021#16 0x0000#16 0x0000#16 0x0000#16) =
      some (0x00000000#32, 0x00000000#32, 0x0021#16, 0x00000005#32) := by decide

/-- LDRS 10 after reset: `RSENSE = 0x000A`, `STAT = 0x0010` (R90). -/
theorem test_ldrs_loads : ∃ t, runCommand 0x0100000A#32 State.reset = .next t ∧ t.rsense = 0x000A#16 ∧ t.stat = 0x0010#16 :=
  ⟨_, rfl, by decide, by decide⟩

/-- LDP P1, 4000 loads `P[1]` alone (R91). -/
theorem test_ldp_loads_one_register : ∃ t, runCommand 0x02010FA0#32 (loadedPair 7#16 8#16) = .next t ∧
    t.p = #v[7#16, 0x0FA0#16, 0#16, 0#16, 0#16, 0#16] ∧ t.stat = 0x0000#16 :=
  ⟨_, rfl, by decide, by decide⟩

/-- 95_test_vectors.md section 2.11: taking an exception in one step, every register of the block. -/
theorem test_exception_entry :
    ∃ t, runCommand 0x310003F2#32
        { loaded 3#16 2#16 0x0020#16 0x0040#16 0x0100#16 0x0800#16 with
          rsense := 10#16, res := 0x00000969#32, stat := 0x0018#16 } = .next t ∧
      t.p = #v[3#16, 2#16, 0x0020#16, 0x0040#16, 0x0100#16, 0x0800#16] ∧ t.rsense = 10#16 ∧ t.res = 0#32 ∧ t.aux = 0#32 ∧
      t.stat = 0x0031#16 ∧ t.errval = 0x000003F2#32 :=
  ⟨_, rfl, by decide, by decide, by decide, by decide, by decide, by decide⟩

/- ==== the clock edge: 10_state.md R19, 70_reset_and_hazards.md R120, R121 ==== -/

/-- A host that presents `CVOLT 0xA000` at the first edge, to be completed two edges later, and nothing else. -/
def presents : State := { State.reset with schedule := [⟨false, true, 0x1000A000#32, 1⟩] }

/-- What is on the port after one edge: `cmd_ready`, `rsp_valid`, `res_o`. -/
def port : Host.Outcome State Fault Refusal → Option (Bool × Bool × Word)
  | .next t => some (t.outputs.cmdReady, t.outputs.rspValid, t.outputs.resO)
  | .fault _ => none
  | .refused _ => none

theorem test_accept_lowers_ready : port (step presents) = some (false, false, 0#32) := by decide
theorem test_waiting_keeps_the_outputs :
    port (step { presents with inFlight := some ⟨0x1000A000#32, 1⟩ }) = some (false, false, 0#32) := by decide
theorem test_completion_gives_the_result :
    port (step { State.reset with inFlight := some ⟨0x1000A000#32, 0⟩ }) = some (true, true, 0x0186A000#32) := by decide
theorem test_response_lasts_one_cycle :
    port (step { State.reset with rspValid := true, res := 5#32 }) = some (true, false, 5#32) := by decide
theorem test_no_acceptance_at_the_completing_edge :
    port (step { presents with inFlight := some ⟨0x11000100#32, 0⟩ }) = some (true, true, 0x00000100#32) := by decide
theorem test_reset_abandons_a_command :
    port (step { calibrated 5#16 with
      res := 7#32, inFlight := some ⟨0x1000A000#32, 0⟩, schedule := [⟨true, true, 0x1000A000#32, 0⟩] }) =
      some (true, false, 0#32) := by decide

/-- The host's placing of a word: the next step runs it. -/
theorem test_fetch_word_runs_next :
    seen (step (State.reset.withFetchWord 32 0x1000A000)) = some (0x0186A000#32, 0#32, 0x0008#16, 0#32) := by decide
theorem test_fetch_word_pcfg_after_reset :
    seen (step (State.reset.withFetchWord 32 0x20000000)) = some (0#32, 0#32, 0x0021#16, 0#32) := by decide

/- ==== the assembler: 30_encoding.md R53, R54, R55 ==== -/

theorem test_assemble_hexadecimal : assembleLine "CVOLT 0xA000".toList = some [.cvolt 0xA000#16] := by decide
theorem test_assemble_hexadecimal_letters : assembleLine "UNPK 0xfBC9".toList = some [.unpk 0xFBC9#16] := by decide
theorem test_assemble_decimal_has_no_letters : assembleLine "LDRS 1A".toList = none := by decide
theorem test_assemble_negative_and_comment : assembleLine "VVTH -20 ; twenty below".toList = some [.vvth 0xFFEC#16] := by decide
theorem test_assemble_setvth :
    assembleLine "SETVTH 1000, 4000".toList = some [.ldp 0#3 1000#16, .ldp 1#3 4000#16, .evth] := by decide
theorem test_assemble_value_out_of_range : assembleLine "LDRS 65536".toList = none := by decide
theorem test_assemble_no_such_register : assembleLine "LDP P6, 1".toList = none := by decide

/- ==== witnesses: for every statement with hypotheses, something that meets them ==== -/

/-- DecodeOfEncodeIsIdentity: the largest parameter number. -/
theorem witness_well_formed : (Instr.ldp 5#3 0xFFFF#16).wellFormed = true := by decide

/-- EncodeOfDecodeIsIdentity. -/
theorem witness_legal_word : decode 0x3700C832#32 = .ok (.dvth 0xC832#16) := by decide

/-- LegalWordsAreTheOpcodeMap, StepRaisesIllegalCommand: an illegal word of each case (a) to (d). -/
theorem witness_illegal_words :
    legalWord 0xFF000000#32 = false ∧ legalWord 0x37010000#32 = false ∧ legalWord 0x34000001#32 = false ∧
    legalWord 0x02080000#32 = false ∧ legalWord 0x02060000#32 = false := by decide

/-- A state in which an illegal word is due. -/
def illegalDue : State := { State.reset with inFlight := some ⟨0x02060001#32, 0⟩, schedule := [⟨false, true, 0x03000000#32, 0⟩] }

/-- A state in which a legal word is due. -/
def legalDue : State := { calibrated 10#16 with inFlight := some ⟨0x1400FFFF#32, 0⟩ }

/-- StepRunsTheDecodedCommand. -/
theorem witness_command_due :
    legalDue.inFlight = some ⟨0x1400FFFF#32, 0⟩ ∧ legalDue.input.rst = false ∧ decode 0x1400FFFF#32 = .ok (.ccur 0xFFFF#16) := by
  decide

/-- StepRaisesIllegalCommand. -/
theorem witness_illegal_command_due :
    illegalDue.inFlight = some ⟨0x02060001#32, 0⟩ ∧ illegalDue.input.rst = false ∧ legalWord 0x02060001#32 = false := by decide

/-- AcceptedCommandCompletesAfterLat, the first clause, with a command and without. -/
theorem witness_port_ready :
    (presents.input.rst = false ∧ presents.inFlight = none ∧ presents.input.cmdValid = true) ∧
    (State.reset.input.rst = false ∧ State.reset.inFlight = none ∧ State.reset.input.cmdValid = false) := by decide

/-- AcceptedCommandCompletesAfterLat, the second clause, on both sides of its condition. -/
theorem witness_command_in_flight :
    (legalDue.input.rst = false ∧ legalDue.inFlight = some ⟨0x1400FFFF#32, 0⟩) ∧
    (let s := { presents with inFlight := some ⟨0x1000A000#32, 1⟩ }
     s.input.rst = false ∧ s.inFlight = some ⟨0x1000A000#32, 1⟩) := by decide

/-- AcceptedCommandCompletesAfterLat, the third clause at the least latency, 1, and at 2. -/
theorem witness_acceptance :
    (∃ (s : State) (waiting rest : List EdgeInput), s.inFlight = none ∧
      s.schedule = ⟨false, true, 0x1000A000#32, 0⟩ :: (waiting ++ rest) ∧ waiting.length = 0 + 1 ∧ ∀ e ∈ waiting, e.rst = false) ∧
    (∃ (s : State) (waiting rest : List EdgeInput), s.inFlight = none ∧
      s.schedule = ⟨false, true, 0x1000A000#32, 1⟩ :: (waiting ++ rest) ∧ waiting.length = 1 + 1 ∧ ∀ e ∈ waiting, e.rst = false) :=
  ⟨⟨{ State.reset with schedule := [⟨false, true, 0x1000A000#32, 0⟩, idleInput] }, [idleInput], [], by decide, by decide, by decide,
      by decide⟩,
    ⟨{ State.reset with schedule := [⟨false, true, 0x1000A000#32, 1⟩, idleInput, idleInput, ⟨true, false, 0#32, 0⟩] },
      [idleInput, idleInput], [⟨true, false, 0#32, 0⟩], by decide, by decide, by decide, by decide⟩⟩

/-- A state in which the host resets the block while a command is in flight. -/
def resetting : State := { legalDue with schedule := [⟨true, true, 0x03000000#32, 0⟩] }

/-- ResetDominates. -/
theorem witness_reset : resetting.input.rst = true ∧ resetting.inFlight ≠ none := by decide

/-- StepKeepsRegistersLegal: a state with every flag set and a step from it. -/
theorem witness_inv_step : Inv legalDue ∧ ∃ t, step legalDue = .next t := ⟨by decide, _, rfl⟩

/-- CalibrationIsWriteOnce, both clauses: a second LDRS, and an edge. -/
theorem witness_calibrated :
    (statCalv (calibrated 5#16).stat = true ∧ ∃ t, runCommands [0x01000007#32] (calibrated 5#16) = .next t) ∧
    (legalDue.input.rst = false ∧ statCalv legalDue.stat = true ∧ ∃ t, step legalDue = .next t) :=
  ⟨⟨by decide, _, rfl⟩, by decide, by decide, _, rfl⟩

/-- OnlyLdpAndResetWriteParameters: a command that changes a parameter register, at the last of them; an edge that does, by LDP and by
reset. -/
theorem witness_parameter_written :
    (∃ t, exec (.ldp 5#3 9#16) State.reset = .next t ∧ t.param 5 ≠ State.reset.param 5) ∧
    (let s := { State.reset with inFlight := some ⟨0x02050009#32, 0⟩ }
     ∃ t, step s = .next t ∧ t.param 5 ≠ s.param 5) ∧
    (let s := { loadedPair 1#16 2#16 with schedule := [⟨true, false, 0#32, 0⟩] }
     ∃ t, step s = .next t ∧ t.param 1 ≠ s.param 1) :=
  ⟨⟨_, rfl, by decide⟩, ⟨_, rfl, by decide⟩, ⟨_, rfl, by decide⟩⟩

/-- ResultRegisterRules: a computing command to which both clauses apply, and one to which neither does. -/
theorem witness_result_register :
    (∃ t, exec (.cvolt 0xFFFF#16) State.reset = .next t ∧ isHousekeeping (.cvolt 0xFFFF#16) = false) ∧
    (∀ imm : Half, Instr.cvolt 0xFFFF#16 ≠ .ctemp imm ∧ Instr.cvolt 0xFFFF#16 ≠ .ccur imm ∧ Instr.cvolt 0xFFFF#16 ≠ .unpks imm) ∧
    (∀ imm : Half, Instr.cvolt 0xFFFF#16 ≠ .ccap imm ∧ Instr.cvolt 0xFFFF#16 ≠ .ccur imm ∧ Instr.cvolt 0xFFFF#16 ≠ .unpk imm ∧
      Instr.cvolt 0xFFFF#16 ≠ .unpks imm ∧ Instr.cvolt 0xFFFF#16 ≠ .dvth imm) :=
  ⟨⟨_, rfl, rfl⟩, fun imm => by simp, fun imm => by simp⟩

/-- PastOutcomesDoNotMatter: two states that differ in every register a past command leaves, and the clause for results both by a
failure and by a computing command. -/
theorem witness_same_inputs :
    SameInputs (calibrated 10#16) { calibrated 10#16 with res := 1#32, aux := 2#32, errval := 3#32, stat := 0x0031#16 } ∧
    (∃ t, runCommand 0x1400FFFF#32 (calibrated 10#16) = .next t ∧ statErr t.stat = 0#3) ∧
    (∃ t, runCommand 0x16000100#32 (calibrated 10#16) = .next t ∧ statErr t.stat ≠ 0#3) ∧
    (∃ i, decode 0x1400FFFF#32 = .ok i ∧ isHousekeeping i = false) :=
  ⟨⟨rfl, rfl, by decide⟩, ⟨_, rfl, by decide⟩, ⟨_, rfl, by decide⟩, ⟨_, rfl, rfl⟩⟩

/-- CommandsReadOnlyTheirInputs: for each kind of input two states that agree on it and on little else. -/
theorem witness_inputs_agree :
    inputsAgree .pcfg (loadedPair 2#16 0#16) { loadedPair 2#16 0#16 with rsense := 5#16, stat := 0x0030#16, res := 9#32 } ∧
    inputsAgree .evth (loadedPair 0#16 20#16) (loaded 0#16 20#16 3#16 4#16 5#16 6#16) ∧
    inputsAgree (.ccur 1#16) (calibrated 5#16) { calibrated 5#16 with p := #v[1#16, 2#16, 3#16, 4#16, 5#16, 6#16] } ∧
    inputsAgree (.ldrs 1#16) (calibrated 5#16) { calibrated 6#16 with errval := 7#32 } ∧
    inputsAgree (.cvolt 1#16) State.reset { calibrated 6#16 with p := #v[1#16, 2#16, 3#16, 4#16, 5#16, 6#16] } ∧
    (∃ t t', exec (.cvolt 1#16) State.reset = .next t ∧ exec (.cvolt 1#16) (calibrated 6#16) = .next t') :=
  ⟨by unfold inputsAgree; decide, by unfold inputsAgree; decide, by unfold inputsAgree; decide, by unfold inputsAgree; decide,
    trivial, _, _, rfl, rfl⟩

/-- ResultUsableOnlyAfterSuccess: a computing success, a housekeeping success over a usable result, and a failure. -/
theorem witness_result_usable :
    (∃ t, runCommand 0x11000100#32 State.reset = .next t ∧ ResultUsable t) ∧
    (∃ t, runCommand 0x02000003#32 { State.reset with res := 5#32, stat := 0x0008#16 } = .next t ∧ ResultUsable t) ∧
    (∃ t, runCommand 0x00000000#32 { State.reset with res := 5#32, stat := 0x0008#16 } = .next t ∧ statErr t.stat ≠ 0#3) ∧
    (∃ i, decode 0x02000003#32 = .ok i ∧ isHousekeeping i = true) :=
  ⟨⟨_, rfl, by decide⟩, ⟨_, rfl, by decide⟩, ⟨_, rfl, by decide⟩, ⟨_, rfl, rfl⟩⟩

/-- StickyFlagRecordsFailures: a list with a failure, a CLRE and a success; and one that leaves the flag set. -/
theorem witness_sticky :
    (∃ t, runCommands [0x00000000#32, 0x03000000#32, 0x11000100#32] State.reset = .next t ∧ statSe t.stat = false) ∧
    (∃ t, runCommands [0x00000000#32, 0x11000100#32] State.reset = .next t ∧ statSe t.stat = true) :=
  ⟨⟨_, rfl, by decide⟩, ⟨_, rfl, by decide⟩⟩

/-- RepeatedCommandChangesNothing: an LDP, which is not LDRS. -/
theorem witness_not_ldrs :
    (∀ imm : Half, Instr.ldp 0#3 7#16 ≠ .ldrs imm) ∧ ∃ t, exec (.ldp 0#3 7#16) State.reset = .next t :=
  ⟨fun imm => by simp, _, rfl⟩

/-- CcapDividesByRsense, CcurDividesByRsenseTowardZero, NoConversionOverflows: not calibrated, and calibrated with the least and the
greatest resistance. -/
theorem witness_division_states :
    statCalv State.reset.stat = false ∧
    (statCalv (calibrated 1#16).stat = true ∧ (calibrated 1#16).rsense ≠ 0#16) ∧
    (statCalv (calibrated 65535#16).stat = true ∧ (calibrated 65535#16).rsense ≠ 0#16) := by decide

/-- CcurDividesByRsenseTowardZero: raw values of both signs, and zero. -/
theorem witness_current_signs : 0 ≤ sval 0x7FFF#16 ∧ sval 0x8000#16 ≤ 0 ∧ 0 ≤ sval 0x0000#16 ∧ sval 0x0000#16 ≤ 0 := by decide

/-- CvthbRefusesMoreThanAByte: the last byte and the first value that is none. -/
theorem witness_byte_boundary : uval 0x00FF#16 ≤ 255 ∧ 255 < uval 0x0100#16 := by decide

/-- DivisionLaw: the least divisor; a quotient and remainder that meet the hypotheses of the uniqueness clause, with each sign. -/
theorem witness_division :
    (1 : Int) ≤ 1 ∧
    ((-15625 : Int) = -1562 * 10 + -5 ∧ |(-5 : Int)| < 10 ∧ ((-5 : Int) < 0 ∧ (-15625 : Int) < 0)) ∧
    ((15625 : Int) = 1562 * 10 + 5 ∧ |(5 : Int)| < 10 ∧ ((0 : Int) < 5 ∧ (0 : Int) < 15625)) ∧
    ((20 : Int) = 2 * 10 + 0 ∧ |(0 : Int)| < 10) := by decide

/-- PhysicalValueIsTheSourceFormula: a legal state and a success, for a command with a unit in RES and for one with a unit in AUX. -/
theorem witness_physical_value :
    RegistersLegal (calibrated 3#16) ∧
    (∃ t, exec (.ccap 1#16) (calibrated 3#16) = .next t ∧ statErr t.stat = 0#3) ∧ resultUnit (.ccap 1#16) ≠ none ∧
    (∃ t, exec (.dvth 0x00FF#16) (calibrated 3#16) = .next t ∧ statErr t.stat = 0#3) ∧ auxUnit (.dvth 0x00FF#16) ≠ none :=
  ⟨by decide, ⟨_, rfl, by decide⟩, by simp [resultUnit], ⟨_, rfl, by decide⟩, by simp [auxUnit]⟩

/-- MasksAreDisjoint, its third clause: masks that meet R6. -/
theorem witness_masks : Config.exampleMasks.wf := by decide

/-- PcfgChecksThenEncodes: a state for each branch on the two counts, at their bounds. -/
theorem witness_pcfg_counts :
    (¬ (2 ≤ uval ((loaded 1#16 0#16 0#16 0#16 0#16 0#16).param 0) ∧ uval ((loaded 1#16 0#16 0#16 0#16 0#16 0#16).param 0) ≤ 4)) ∧
    (¬ (2 ≤ uval ((loaded 5#16 9#16 0#16 0#16 0#16 0#16).param 0) ∧ uval ((loaded 5#16 9#16 0#16 0#16 0#16 0#16).param 0) ≤ 4)) ∧
    (2 ≤ uval ((loaded 4#16 5#16 0#16 0#16 0#16 0#16).param 0) ∧ uval ((loaded 4#16 5#16 0#16 0#16 0#16 0#16).param 0) ≤ 4 ∧
      4 < uval ((loaded 4#16 5#16 0#16 0#16 0#16 0#16).param 1)) := by decide

/-- PcfgChecksThenEncodes: a state for each branch on an enumerant, whatever the masks are: both counts legal, the earlier enumerants
zero, and bit 0 set in the one at fault. -/
theorem witness_pcfg_enumerants :
    (loaded 2#16 4#16 1#16 0#16 0#16 0#16).param 2 &&& ~~~Config.masks.thermistorType ≠ 0#16 ∧
    (loaded 2#16 4#16 0#16 1#16 0#16 0#16).param 3 &&& ~~~Config.masks.chargePumpVoltage ≠ 0#16 ∧
    (loaded 2#16 4#16 0#16 0#16 1#16 0#16).param 4 &&& ~~~Config.masks.regulatorMode ≠ 0#16 ∧
    (loaded 2#16 4#16 0#16 0#16 0#16 1#16).param 5 &&& ~~~Config.masks.updateCadence ≠ 0#16 ∧
    (2 ≤ uval (2#16 : Half) ∧ uval (2#16 : Half) ≤ 4 ∧ ¬ 4 < uval (4#16 : Half) ∧ ∀ m : Half, 0#16 &&& ~~~m = 0#16) :=
  ⟨Config.bit_0_outside _ _, Config.bit_0_outside _ _, Config.bit_0_outside _ _, Config.bit_0_outside _ _, by decide, by decide,
    by decide, by simp⟩

/-- PcfgCodeReadsBack: PCFG succeeds, whatever the masks are, with zero enumerants. -/
theorem witness_pcfg_succeeds :
    ∃ t, exec .pcfg (loaded 4#16 4#16 0#16 0#16 0#16 0#16) = .next t ∧ statErr t.stat = 0#3 ∧ t.res = 0x00000012#32 :=
  ⟨_, rfl, by decide, by decide⟩

/-- EvthbInvertsCvthb, PairRoundTrips: the ends of the valid range, and values just outside it. -/
theorem witness_thresholds :
    IsThreshold (sval 0#16) ∧ IsThreshold (sval 5100#16) ∧ ¬ IsThreshold (sval 5120#16) ∧ ¬ IsThreshold (sval 0xFFEC#16) ∧
    ¬ IsThreshold (sval 5090#16) := by decide

/-- EvthEncodesThePair: each of its three branches. -/
theorem witness_evth_branches :
    ¬ IsThreshold (sval ((loadedPair 0xFFEC#16 0#16).param 0)) ∧
    (IsThreshold (sval ((loadedPair 5100#16 5120#16).param 0)) ∧ ¬ IsThreshold (sval ((loadedPair 5100#16 5120#16).param 1))) ∧
    (IsThreshold (sval ((loadedPair 5100#16 0#16).param 0)) ∧ IsThreshold (sval ((loadedPair 5100#16 0#16).param 1))) := by decide

/-- PackRefusesMoreThanAByte: each of its three branches. -/
theorem witness_pack_branches :
    255 < uval ((loadedPair 256#16 0#16).param 0) ∧
    (¬ 255 < uval ((loadedPair 255#16 256#16).param 0) ∧ 255 < uval ((loadedPair 255#16 256#16).param 1)) ∧
    (¬ 255 < uval ((loadedPair 255#16 255#16).param 0) ∧ ¬ 255 < uval ((loadedPair 255#16 255#16).param 1)) := by decide

/-- PacksRefusesMoreThanASignedByte: each of its three branches. -/
theorem witness_packs_branches :
    (sval ((loadedPair 0xFF7F#16 0#16).param 0) < -128 ∧ 127 < sval ((loadedPair 128#16 0#16).param 0)) ∧
    (¬ (sval ((loadedPair 0xFF80#16 128#16).param 0) < -128 ∨ 127 < sval ((loadedPair 0xFF80#16 128#16).param 0)) ∧
      127 < sval ((loadedPair 0xFF80#16 128#16).param 1)) ∧
    (¬ (sval ((loadedPair 0xFF80#16 127#16).param 0) < -128 ∨ 127 < sval ((loadedPair 0xFF80#16 127#16).param 0)) ∧
      ¬ (sval ((loadedPair 0xFF80#16 127#16).param 1) < -128 ∨ 127 < sval ((loadedPair 0xFF80#16 127#16).param 1))) := by decide

/-- PairOrderIsNotCompared: a pair and the same pair inverted. -/
theorem witness_inverted_pair :
    (loadedPair 5100#16 0#16).param 0 = (loadedPair 0#16 5100#16).param 1 ∧
    (loadedPair 5100#16 0#16).param 1 = (loadedPair 0#16 5100#16).param 0 ∧
    (∃ t, exec .evth (loadedPair 0#16 5100#16) = .next t) ∧ (∃ t, exec .evth (loadedPair 5100#16 0#16) = .next t) :=
  ⟨by decide, by decide, ⟨_, rfl⟩, ⟨_, rfl⟩⟩

/-- LdrsLoadsOnce: locked; not locked and zero; not locked and the least and greatest resistance. -/
theorem witness_ldrs_branches :
    statCalv (calibrated 5#16).stat = true ∧ ¬ statCalv State.reset.stat = true ∧ (1#16 : Half) ≠ 0#16 ∧
    (65535#16 : Half) ≠ 0#16 := by decide

/-- LdpLoadsOneRegister: the last parameter number and the first that names none. -/
theorem witness_ldp_numbers : (5#3).toNat ≤ 5 ∧ 5 < (6#3).toNat := by decide

end Sys2Proof.Machine.Tests
end

/-! PROOFS of the statements of spec/00_scope.md: the masks (R6) and the physical values (R5). -/

/-! ### The masks of R6, read field by field -/

namespace Sys2Proof.Config

/-- The mask of a field under an assignment, whichever field it is. -/
@[simp] theorem masksOf_field (owner : Nat → Option EnumField) (f : EnumField) :
    (masksOf owner).field f = maskOf owner f := by
  cases f <;> rfl

/-- Four masks are given by what they are field by field. -/
theorem masks_ext_field {m m' : Masks} (h : ∀ f, m.field f = m'.field f) : m = m' := by
  have ht : m.thermistorType = m'.thermistorType := h .thermistorType
  have hp : m.chargePumpVoltage = m'.chargePumpVoltage := h .chargePumpVoltage
  have hr : m.regulatorMode = m'.regulatorMode := h .regulatorMode
  have hc : m.updateCadence = m'.updateCadence := h .updateCadence
  cases m
  cases m'
  simp_all

/-- The enumerant fields in the order of R72. -/
def enumFields : List EnumField := [.thermistorType, .chargePumpVoltage, .regulatorMode, .updateCadence]

/-- The list leaves no field out. -/
theorem mem_enumFields (f : EnumField) : f ∈ enumFields := by cases f <;> decide

/-- R6 as one condition on every field and one on every two fields. -/
theorem masks_wf_iff (m : Masks) :
    m.wf ↔ (∀ f, m.field f &&& countBits = 0#16) ∧ ∀ f g, f ≠ g → m.field f &&& m.field g = 0#16 := by
  constructor
  · rintro ⟨⟨ht, hp, hr, hc⟩, htp, htr, htc, hpr, hpc, hrc⟩
    have hpairwise : enumFields.Pairwise fun f g => m.field f &&& m.field g = 0#16 := by
      simp [enumFields, Masks.field, htp, htr, htc, hpr, hpc, hrc]
    have hsymm : Std.Symm fun f g => m.field f &&& m.field g = 0#16 :=
      ⟨fun f g hfg => (BitVec.and_comm _ _).trans hfg⟩
    refine ⟨fun f => ?_, fun f g hfg => hpairwise.forall (mem_enumFields f) (mem_enumFields g) hfg⟩
    cases f <;> assumption
  · rintro ⟨hcount, hpair⟩
    exact ⟨⟨hcount .thermistorType, hcount .chargePumpVoltage, hcount .regulatorMode, hcount .updateCadence⟩,
      hpair .thermistorType .chargePumpVoltage (by decide), hpair .thermistorType .regulatorMode (by decide),
      hpair .thermistorType .updateCadence (by decide), hpair .chargePumpVoltage .regulatorMode (by decide),
      hpair .chargePumpVoltage .updateCadence (by decide), hpair .regulatorMode .updateCadence (by decide)⟩

/-- Every assignment of bits to fields meets R6. -/
theorem masksOf_wf (owner : Nat → Option EnumField) : (masksOf owner).wf := by
  rw [masks_wf_iff]
  refine ⟨fun f => ?_, fun f g hfg => ?_⟩
  · rw [masksOf_field]
    exact maskOf_and_countBits owner f
  · rw [masksOf_field, masksOf_field]
    exact maskOf_and_maskOf owner hfg

/-- A bit set in one word is clear in a word that has no bit in common with it. -/
theorem getLsbD_eq_false_of_and_eq_zero {n : Nat} {v w : BitVec n} (h : v &&& w = 0#n) {i : Nat}
    (hv : v.getLsbD i = true) : w.getLsbD i = false := by
  have hbit : (v &&& w).getLsbD i = false := by simp [h]
  simpa [hv] using hbit

/-- The assignment that four masks give: a bit belongs to the first field whose mask has it. -/
def ownerOf (m : Masks) (i : Nat) : Option EnumField := enumFields.find? fun f => (m.field f).getLsbD i

/-- For masks that meet R6 "the first field" is the only one. -/
theorem ownerOf_eq_some_iff {m : Masks} (hm : m.wf) (i : Nat) (f : EnumField) :
    ownerOf m i = some f ↔ (m.field f).getLsbD i = true := by
  refine ⟨fun h => by simpa using List.find?_some h, fun hf => ?_⟩
  obtain ⟨-, hpair⟩ := (masks_wf_iff m).mp hm
  cases hg : ownerOf m i with
  | none => exact absurd hf (List.find?_eq_none.mp hg f (mem_enumFields f))
  | some g =>
    have hgbit : (m.field g).getLsbD i = true := by simpa using List.find?_some hg
    by_contra hne
    have hclear := getLsbD_eq_false_of_and_eq_zero (hpair g f fun e => hne (congrArg some e)) hgbit
    exact Bool.false_ne_true (hclear.symm.trans hf)

/-- Masks that meet R6 are those of the assignment they give. -/
theorem masksOf_ownerOf {m : Masks} (hm : m.wf) : masksOf (ownerOf m) = m := by
  obtain ⟨hcount, -⟩ := (masks_wf_iff m).mp hm
  refine masks_ext_field fun f => ?_
  rw [masksOf_field]
  apply BitVec.eq_of_getLsbD_eq
  intro i hi
  simp only [getLsbD_maskOf, ownerOf_eq_some_iff hm, hi, decide_true, Bool.true_and, Bool.decide_eq_true]
  cases hbit : (m.field f).getLsbD i with
  | false => simp
  | true =>
    have houtside := getLsbD_eq_false_of_and_eq_zero (hcount f) hbit
    rw [getLsbD_countBits, decide_eq_false_iff_not] at houtside
    simp only [Bool.and_true, decide_eq_true_eq]
    omega

end Sys2Proof.Config

namespace Sys2Proof.Machine

/-- Settles O37: R6 holds of every assignment by `masksOf_wf`, and `ownerOf` is an assignment for any masks that meet it. -/
theorem masksAreDisjoint : Obligations.MasksAreDisjoint :=
  ⟨Config.masksOf_wf _, Config.masksOf_wf, fun m hm => ⟨Config.ownerOf m, Config.masksOf_ownerOf hm⟩⟩

/-! ### What integer a word holds: the primitives of spec/00_scope.md section 6 -/

theorem uval_nonneg {n : Nat} (v : BitVec n) : 0 ≤ uval v := Int.natCast_nonneg _

theorem uval_lt {n : Nat} (v : BitVec n) : uval v < 2 ^ n := by
  unfold uval
  exact_mod_cast v.isLt

/-- Only the zero word has the value zero. -/
theorem uval_ne_zero {n : Nat} {v : BitVec n} (h : v ≠ 0#n) : uval v ≠ 0 := by
  intro hv
  exact h (BitVec.eq_of_toNat_eq (by simpa [uval] using hv))

/-- Sign extension keeps the signed value. -/
@[simp] theorem sval_sext32 (v : Half) : sval (sext32 v) = sval v :=
  BitVec.toInt_signExtend_of_le (by decide)

/-- Zero extension keeps the unsigned value. -/
@[simp] theorem uval_zext32 (v : Half) : uval (zext32 v) = uval v := by
  simp only [uval, zext32, BitVec.toNat_setWidth_of_le (show 16 ≤ 32 by decide)]

/-- `enc_32` is exact on what 32 bits hold unsigned. -/
theorem uval_enc32 {n : Int} (h0 : 0 ≤ n) (h : n < 2 ^ 32) : uval (enc32 n) = n := by
  simp only [uval, enc32, BitVec.toNat_ofInt]
  omega

/-- `enc_32` is exact on what 32 bits hold signed. -/
theorem sval_enc32 {n : Int} (h0 : -2 ^ 31 ≤ n) (h : n < 2 ^ 31) : sval (enc32 n) = n :=
  BitVec.toInt_ofInt_eq_self (by decide) h0 h

/-! ### The range of each integer that a conversion encodes (spec/40_conversion.md R62) -/

/-- A raw value or a byte, times a constant of at most 16 bits, is within 32 bits. -/
theorem uval_mul_range {n : Nat} (hn : n ≤ 16) (v : BitVec n) {k : Int} (hk0 : 0 ≤ k) (hk : k ≤ 2 ^ 16) :
    0 ≤ uval v * k ∧ uval v * k < 2 ^ 32 := by
  have hv : uval v < 2 ^ 16 := (uval_lt v).trans_le (pow_le_pow_right₀ (by decide) hn)
  refine ⟨mul_nonneg (uval_nonneg v) hk0, ?_⟩
  calc uval v * k ≤ uval v * 2 ^ 16 := mul_le_mul_of_nonneg_left hk (uval_nonneg v)
    _ < 2 ^ 16 * 2 ^ 16 := mul_lt_mul_of_pos_right hv (by decide)
    _ = 2 ^ 32 := by decide

/-- Such a product is held exactly: those of CVOLT, CTIME and a threshold byte (R63, R68, R69, R83). -/
theorem uval_enc32_mul {n : Nat} (hn : n ≤ 16) (v : BitVec n) {k : Int} (hk0 : 0 ≤ k) (hk : k ≤ 2 ^ 16) :
    uval (enc32 (uval v * k)) = uval v * k := by
  obtain ⟨h0, h⟩ := uval_mul_range hn v hk0 hk
  exact uval_enc32 h0 h

/-- The millivolts of a threshold byte (R69, R83). -/
theorem uval_enc32_byteMv (b : Byte) : uval (enc32 (byteMv b)) = byteMv b :=
  uval_enc32_mul (by decide) b (by decide) (by decide)

/-- `trem` is the remainder of truncating division. -/
theorem trem_eq_tmod (n d : Int) : trem n d = n.tmod d := (Int.tmod_def n d).symm

/-- A quotient is no greater in size than the dividend. -/
theorem abs_tdiv_le (n d : Int) : |tdiv n d| ≤ |n| := by
  rw [Int.abs_eq_natAbs, Int.abs_eq_natAbs, tdiv, Int.natAbs_tdiv]
  exact_mod_cast Nat.div_le_self _ _

/-- A remainder is no greater in size than the dividend. -/
theorem abs_trem_le (n d : Int) : |trem n d| ≤ |n| := by
  rw [Int.abs_eq_natAbs, Int.abs_eq_natAbs, trem_eq_tmod, Int.natAbs_tmod]
  exact_mod_cast Nat.mod_le _ _

/-- The quotient and remainder of what 32 bits hold signed are held exactly. -/
theorem sval_enc32_division {n : Int} (h : |n| < 2 ^ 31) (d : Int) :
    sval (enc32 (tdiv n d)) = tdiv n d ∧ sval (enc32 (trem n d)) = trem n d := by
  obtain ⟨hq0, hq⟩ := abs_lt.mp ((abs_tdiv_le n d).trans_lt h)
  obtain ⟨hr0, hr⟩ := abs_lt.mp ((abs_trem_le n d).trans_lt h)
  exact ⟨sval_enc32 hq0.le hq, sval_enc32 hr0.le hr⟩

/-- The quotient and remainder of a dividend that is not negative are held exactly as unsigned words too. -/
theorem uval_enc32_division {n : Int} (h0 : 0 ≤ n) (h : n < 2 ^ 32) {d : Int} (hd : 0 ≤ d) :
    uval (enc32 (tdiv n d)) = tdiv n d ∧ uval (enc32 (trem n d)) = trem n d := by
  have hq : tdiv n d ≤ n := (le_abs_self _).trans ((abs_tdiv_le n d).trans_eq (abs_of_nonneg h0))
  have hr : trem n d ≤ n := (le_abs_self _).trans ((abs_trem_le n d).trans_eq (abs_of_nonneg h0))
  have hr0 : 0 ≤ trem n d := by rw [trem_eq_tmod]; exact Int.tmod_nonneg d h0
  exact ⟨uval_enc32 (Int.tdiv_nonneg h0 hd) (hq.trans_lt h), uval_enc32 hr0 (hr.trans_lt h)⟩

/-- CCUR's dividend fits (R67). -/
theorem abs_mul_kCur_lt (imm : Half) : |sval imm * Config.kCur| < 2 ^ 31 := by
  have h0 : -2 ^ 15 ≤ sval imm := BitVec.le_toInt imm
  have h : sval imm < 2 ^ 15 := BitVec.toInt_lt
  rw [abs_lt]
  simp only [Config.kCur]
  omega

/-- Nothing is lost by a division: the quotient and the remainder over the divisor make up the fraction (R61). -/
theorem tdiv_add_trem_div (n : Int) {d : Int} (hd : d ≠ 0) :
    (tdiv n d : Rat) + (trem n d : Rat) / (d : Rat) = (n : Rat) / (d : Rat) := by
  have hd' : (d : Rat) ≠ 0 := by exact_mod_cast hd
  rw [trem]
  push_cast
  field_simp
  ring

/-! ### The commands that have a unit, at success -/

/-- A check behind which `ERR` is zero has passed (spec/60_exceptions.md R100, R101). -/
theorem unlessRaise_of_statErr_zero {ok : Bool} {e : Cause} {info : Word} {s goOn : State}
    (h : statErr (unlessRaise ok e info s goOn).stat = 0#3) : ok = true ∧ unlessRaise ok e info s goOn = goOn := by
  rcases unlessRaise_cases ok e info s goOn with hgo | ⟨-, hraise⟩
  · exact hgo
  · rw [hraise] at h
    exact absurd ((raise_stat_fields e info s).1.symm.trans h) (statusCode_ne_zero e)

/-- A division after which `ERR` is zero was made with a calibration. -/
theorem divideByRsense_of_statErr_zero {n : Int} {imm : Half} {s : State}
    (h : statErr (divideByRsense n imm s).stat = 0#3) :
    statCalv s.stat = true ∧
      divideByRsense n imm s = doneResult (enc32 (tdiv n (uval s.rsense))) (enc32 (trem n (uval s.rsense))) s :=
  unlessRaise_of_statErr_zero h

/-- In legal registers a valid calibration is not zero (spec/10_state.md R13). -/
theorem rsense_ne_zero_of_calibrated {s : State} (hs : RegistersLegal s) (h : statCalv s.stat = true) :
    uval s.rsense ≠ 0 := by
  obtain ⟨-, hcalv, -⟩ := hs
  exact uval_ne_zero (hcalv.mp h)

/-- CVOLT (R63): 625 counts of 0.125 microvolt a bit are 78.125 microvolts. -/
theorem physicalValue_cvolt (imm : Half) (s : State) :
    physicalValue (.cvolt imm) (doneResult (enc32 (uval imm * Config.kVolt)) 0#32 s) = sourceFormula (.cvolt imm) s.rsense := by
  have hexact : uval (enc32 (uval imm * Config.kVolt)) = uval imm * Config.kVolt :=
    uval_enc32_mul le_rfl imm (by decide) (by decide)
  simp only [physicalValue, resultUnit, resultCount, resInt, sourceFormula, doneResult_res, hexact, Option.map_some,
    Option.some_inj]
  rw [Config.kVolt]
  push_cast
  ring

/-- CPCT (R64): 1/256 percent a bit. -/
theorem physicalValue_cpct (imm : Half) (s : State) :
    physicalValue (.cpct imm) (doneResult (zext32 imm) 0#32 s) = sourceFormula (.cpct imm) s.rsense := by
  simp only [physicalValue, resultUnit, resultCount, resInt, sourceFormula, doneResult_res, uval_zext32,
    Option.map_some, Option.some_inj]
  ring

/-- CTEMP (R65): 1/256 degree a bit, signed. -/
theorem physicalValue_ctemp (imm : Half) (s : State) :
    physicalValue (.ctemp imm) (doneResult (sext32 imm) 0#32 s) = sourceFormula (.ctemp imm) s.rsense := by
  simp only [physicalValue, resultUnit, resultCount, resInt, sourceFormula, doneResult_res, sval_sext32,
    Option.map_some, Option.some_inj]
  ring

/-- CCAP (R66): 5000 microampere-hours a bit over the resistance are 5 milliampere-hours over it. -/
theorem physicalValue_ccap (imm : Half) {s : State} (hd : uval s.rsense ≠ 0) :
    physicalValue (.ccap imm) (doneResult (enc32 (tdiv (uval imm * Config.kCap) (uval s.rsense)))
      (enc32 (trem (uval imm * Config.kCap) (uval s.rsense))) s) = sourceFormula (.ccap imm) s.rsense := by
  obtain ⟨hn0, hn⟩ := uval_mul_range le_rfl imm (show 0 ≤ Config.kCap by decide) (by decide)
  obtain ⟨hquot, hrem⟩ := uval_enc32_division hn0 hn (uval_nonneg s.rsense)
  simp only [physicalValue, resultUnit, resultCount, resInt, auxInt, sourceFormula, doneResult_res, doneResult_aux,
    doneResult_rsense, hquot, hrem, tdiv_add_trem_div _ hd, Option.map_some, Option.some_inj]
  rw [Config.kCap]
  push_cast
  ring

/-- CCUR (R67): 15625 tenths of a microampere a bit over the resistance are 1.5625 milliamperes over it. -/
theorem physicalValue_ccur (imm : Half) {s : State} (hd : uval s.rsense ≠ 0) :
    physicalValue (.ccur imm) (doneResult (enc32 (tdiv (sval imm * Config.kCur) (uval s.rsense)))
      (enc32 (trem (sval imm * Config.kCur) (uval s.rsense))) s) = sourceFormula (.ccur imm) s.rsense := by
  obtain ⟨hquot, hrem⟩ := sval_enc32_division (abs_mul_kCur_lt imm) (uval s.rsense)
  simp only [physicalValue, resultUnit, resultCount, resInt, auxInt, sourceFormula, doneResult_res, doneResult_aux,
    doneResult_rsense, hquot, hrem, tdiv_add_trem_div _ hd, Option.map_some, Option.some_inj]
  rw [Config.kCur]
  push_cast
  ring

/-- CTIME (R68): 45 eighths of a second a bit are 5.625 seconds. -/
theorem physicalValue_ctime (imm : Half) (s : State) :
    physicalValue (.ctime imm) (doneResult (enc32 (uval imm * Config.kTime)) 0#32 s) = sourceFormula (.ctime imm) s.rsense := by
  have hexact : uval (enc32 (uval imm * Config.kTime)) = uval imm * Config.kTime :=
    uval_enc32_mul le_rfl imm (by decide) (by decide)
  simp only [physicalValue, resultUnit, resultCount, resInt, sourceFormula, doneResult_res, hexact, Option.map_some,
    Option.some_inj]
  rw [Config.kTime]
  push_cast
  ring

/-- 20 millivolts a bit are 0.02 volts: the millivolts of a threshold byte, in `RES` or `AUX`, are the source's voltage. -/
theorem enc32_byteMv_times_unit (b : Byte) : (uval (enc32 (byteMv b)) : Rat) * (1 / 1000) = thresholdFormula b := by
  rw [uval_enc32_byteMv, thresholdFormula, byteMv, Config.vthLsbMv]
  push_cast
  ring

/-- CVTHB (R69). -/
theorem physicalValue_cvthb (imm : Half) (s : State) :
    physicalValue (.cvthb imm) (doneResult (enc32 (byteMv (loByte imm))) 0#32 s) = sourceFormula (.cvthb imm) s.rsense :=
  congrArg some (enc32_byteMv_times_unit (loByte imm))

/-- DVTH (R83), the maximum. -/
theorem physicalValue_dvth (imm : Half) (a : Word) (s : State) :
    physicalValue (.dvth imm) (doneResult (enc32 (byteMv (hiByte imm))) a s) = sourceFormula (.dvth imm) s.rsense :=
  congrArg some (enc32_byteMv_times_unit (hiByte imm))

/-- DVTH (R83), the minimum. -/
theorem auxPhysicalValue_dvth (imm : Half) (r : Word) (s : State) :
    auxPhysicalValue (.dvth imm) (doneResult r (enc32 (byteMv (loByte imm))) s) = auxSourceFormula (.dvth imm) :=
  congrArg some (enc32_byteMv_times_unit (loByte imm))

/-- R5 of `RES`: one case for each command that has a unit; no other has a physical value. -/
theorem physicalValue_of_success {i : Instr} {s t : State} (hs : RegistersLegal s) (ht : exec i s = .next t)
    (herr : statErr t.stat = 0#3) (hunit : resultUnit i ≠ none) : physicalValue i t = sourceFormula i s.rsense := by
  cases i with
  | cvolt imm => cases ht; exact physicalValue_cvolt imm s
  | cpct imm => cases ht; exact physicalValue_cpct imm s
  | ctemp imm => cases ht; exact physicalValue_ctemp imm s
  | ccap imm =>
    cases ht
    obtain ⟨hcalv, hdone⟩ := divideByRsense_of_statErr_zero herr
    rw [hdone]
    exact physicalValue_ccap imm (rsense_ne_zero_of_calibrated hs hcalv)
  | ccur imm =>
    cases ht
    obtain ⟨hcalv, hdone⟩ := divideByRsense_of_statErr_zero herr
    rw [hdone]
    exact physicalValue_ccur imm (rsense_ne_zero_of_calibrated hs hcalv)
  | ctime imm => cases ht; exact physicalValue_ctime imm s
  | cvthb imm =>
    cases ht
    obtain ⟨-, hdone⟩ := unlessRaise_of_statErr_zero herr
    rw [hdone]
    exact physicalValue_cvthb imm s
  | dvth imm => cases ht; exact physicalValue_dvth imm _ s
  | ldrs | ldp | clre | etemp | pcfg | vvth | evthb | evth | pack | packs | unpk | unpks => exact absurd rfl hunit

/-- R5 of `AUX`: DVTH alone has a second result with a unit. -/
theorem auxPhysicalValue_of_exec {i : Instr} {s t : State} (ht : exec i s = .next t) (hunit : auxUnit i ≠ none) :
    auxPhysicalValue i t = auxSourceFormula i := by
  cases i with
  | dvth imm => cases ht; exact auxPhysicalValue_dvth imm _ s
  | ldrs | ldp | clre | cvolt | cpct | ctemp | ccap | ccur | ctime | cvthb | etemp | pcfg | vvth | evthb | evth | pack | packs
  | unpk | unpks => exact absurd rfl hunit

/-- Settles O36: every encoded integer fits its register, and a quotient with its remainder over `RSENSE` is the whole fraction. -/
theorem physicalValueIsTheSourceFormula : Obligations.PhysicalValueIsTheSourceFormula :=
  fun _ _ _ hs ht herr => ⟨physicalValue_of_success hs ht herr, auxPhysicalValue_of_exec ht⟩

end Sys2Proof.Machine

/-! PROOFS of the statements of spec/10_state.md: the registers (R10 to R17), the handshake (R18, R19), the step (R21) and reset
(R23). -/

namespace Sys2Proof.Machine

/-! ### What every ending of a command leaves: the frame, legal registers, the calibration, the parameters -/

/-- The ending of a command that was executed. -/
theorem ending_of_exec {i : Instr} {s t : State} (h : exec i s = .next t) : Ending i s t := by
  obtain ⟨u, hu, hend⟩ := exec_ending i s
  cases hu.symm.trans h
  exact hend

/-- A word that was run ended as its command does, or took IllegalCommand. -/
theorem ending_of_runCommand {w : Word} {s t : State} (h : runCommand w s = .next t) :
    (∃ i, decode w = .ok i ∧ Ending i s t) ∨ t = raise .illegalCommand w s := by
  rcases runCommand_ending w s with ⟨i, u, hdec, hu, -, hend⟩ | ⟨e, -, hraise⟩
  · cases hu.symm.trans h
    exact .inl ⟨i, hdec, hend⟩
  · cases hraise.symm.trans h
    exact .inr rfl

/-- IllegalCommand being among the endings, what every ending leaves, every word leaves. -/
theorem of_runCommand {w : Word} {s t : State} {P : Prop} (h : runCommand w s = .next t) (hP : ∀ i, Ending i s t → P) : P := by
  rcases ending_of_runCommand h with ⟨i, -, hend⟩ | rfl
  · exact hP i hend
  · exact hP .clre (.illegal w)

/-- Executing a command moves neither the port nor the schedule (R19). -/
theorem portKept_of_ending {i : Instr} {s t : State} (h : Ending i s t) : PortKept s t := by
  cases h <;> exact ⟨rfl, rfl, rfl⟩

/-- R21: every word gives a next state, with the port as it was. -/
theorem runCommand_next (w : Word) (s : State) : ∃ t, runCommand w s = .next t ∧ PortKept s t := by
  rcases runCommand_ending w s with ⟨i, t, -, ht, -, hend⟩ | ⟨e, -, ht⟩
  · exact ⟨t, ht, portKept_of_ending hend⟩
  · exact ⟨_, ht, (failureAfter_raise _ _ s).port⟩

/-- What every single word preserves, every list of words preserves. -/
theorem runCommands_preserves {P : State → Prop} (hstep : ∀ w s t, P s → runCommand w s = .next t → P t) :
    ∀ (ws : List Word) {s t : State}, P s → runCommands ws s = .next t → P t
  | [], _, _, hs, h => by cases h; exact hs
  | w :: ws, s, _, hs, h => by
    obtain ⟨u, hu, -⟩ := runCommand_next w s
    rw [runCommands_cons hu] at h
    exact runCommands_preserves hstep ws (hstep w s u hs hu) h

/-- Different exceptions have different codes (spec/60_exceptions.md R102). -/
theorem statusCode_inj {e e' : Cause} : statusCode e = statusCode e' ↔ e = e' := by
  cases e <;> cases e' <;> decide

/-- R100 leaves legal registers legal. -/
theorem registersLegal_of_resultAfter {r a : Word} {s t : State} (h : ResultAfter r a s t) (hs : RegistersLegal s) :
    RegistersLegal t := by
  obtain ⟨⟨hreserved, -⟩, hcalv, -⟩ := hs
  simp [RegistersLegal, h.reserved, h.calv, h.rsense, h.err, h.rv, h.errval, hreserved, hcalv, statusCode]

/-- R101 leaves legal registers legal, for an exception whose state precondition holds (R106, R107). -/
theorem registersLegal_of_failureAfter {e : Cause} {info : Word} {s t : State} (h : FailureAfter e info s t)
    (hs : RegistersLegal s) (hnotCalibrated : e = .notCalibrated → statCalv s.stat = false)
    (hcalLocked : e = .calLocked → statCalv s.stat = true) : RegistersLegal t := by
  obtain ⟨⟨hreserved, -⟩, hcalv, -⟩ := hs
  simpa [RegistersLegal, h.reserved, h.calv, h.rsense, h.err, h.rv, h.res, h.aux, h.se, hreserved, statusCode_le,
    statusCode_ne_zero, statusCode_inj] using ⟨hcalv, hnotCalibrated, hcalLocked⟩

/-- A housekeeping success leaves legal registers legal if the calibration it leaves is legal (R13). -/
theorem registersLegal_of_housekeepingAfter {s t : State} (h : HousekeepingAfter s t) (hs : RegistersLegal s)
    (hcalv : statCalv t.stat = true ↔ t.rsense ≠ 0#16) : RegistersLegal t := by
  obtain ⟨⟨hreserved, -⟩, -, -, hresult, -⟩ := hs
  simpa [RegistersLegal, h.reserved, h.err, h.rv, h.res, h.aux, h.errval, hreserved, hcalv, statusCode] using hresult

/-- Every ending of a command leaves legal registers legal. -/
theorem registersLegal_of_ending {i : Instr} {s t : State} (hs : RegistersLegal s) (h : Ending i s t) : RegistersLegal t := by
  have ⟨_, hcalv, _⟩ := hs
  cases h with
  | result r a => exact registersLegal_of_resultAfter (resultAfter_doneResult r a s) hs
  | loaded k v _ hk => exact registersLegal_of_housekeepingAfter (housekeepingAfter_load s _ v) hs (by simpa using hcalv)
  | calibrated v _ hv => exact registersLegal_of_housekeepingAfter (housekeepingAfter_calibrate s v) hs (by simpa using hv)
  | cleared => exact registersLegal_of_housekeepingAfter (housekeepingAfter_clear s) hs (by simpa using hcalv)
  | notCalibrated info hc => exact registersLegal_of_failureAfter (failureAfter_raise _ info s) hs (fun _ => hc) nofun
  | calLocked info hc => exact registersLegal_of_failureAfter (failureAfter_raise _ info s) hs nofun (fun _ => hc)
  | invalid info | illegal info => exact registersLegal_of_failureAfter (failureAfter_raise _ info s) hs nofun nofun

/-- The calibration is valid, with the resistance `r` (R13). -/
def CalibratedWith (r : Half) (s : State) : Prop := statCalv s.stat = true ∧ s.rsense = r

/-- No command changes a valid calibration: LDRS, the one that writes it, needs `CALV = 0`. -/
theorem calibratedWith_of_ending {r : Half} {i : Instr} {s t : State} (hs : CalibratedWith r s) (h : Ending i s t) :
    CalibratedWith r t := by
  obtain ⟨hcalv, hr⟩ := hs
  cases h with
  | calibrated v _ _ unlocked => exact absurd (unlocked.symm.trans hcalv) Bool.false_ne_true
  | result | loaded | cleared | notCalibrated | calLocked | invalid | illegal => exact ⟨by simpa using hcalv, hr⟩

/-- A command that changes a parameter register is the LDP to it (R11). -/
theorem ldp_of_param_ne {i : Instr} {s t : State} {j : Fin 6} (h : Ending i s t) (hne : t.param j ≠ s.param j) :
    ∃ (k : BitVec 3) (imm : Half), i = .ldp k imm ∧ k.toNat = j.val ∧ t.param j = imm := by
  cases h with
  | loaded k v ldp hk =>
    by_cases hj : j = ⟨k.toNat, hk⟩
    · exact ⟨k, v, ldp, by rw [hj], by simp [hj]⟩
    · exact absurd (by simp [hj]) hne
  | result | calibrated | cleared | notCalibrated | calLocked | invalid | illegal => exact absurd rfl hne

/-! ### What an edge does to the registers and to the port -/

/-- The registers are the same whatever becomes of the port. -/
theorem sameRegisters_of_port (s : State) (v : Bool) (f : Option InFlight) (coming : List EdgeInput) :
    SameRegisters s { s with rspValid := v, inFlight := f, schedule := coming } :=
  ⟨rfl, rfl, rfl, rfl, rfl, rfl⟩

/-- An edge resets the block, moves the port only, or runs the word that is due. -/
theorem step_kinds (s : State) :
    (s.input.rst = true ∧ step s = .next (resetBlock s.tick)) ∨
    (∃ f, step s = .next { s.tick with inFlight := f }) ∨
    (∃ w, s.inFlight = some ⟨w, 0⟩ ∧ step s = runCommand w { s.tick with inFlight := none, rspValid := true }) := by
  rcases step_cases s with hreset | ⟨-, -, -, hidle⟩ | ⟨-, -, -, haccept⟩ | ⟨w, n, -, -, hwait⟩ | ⟨w, -, hdue⟩
  · exact .inl hreset
  · exact .inr (.inl ⟨s.inFlight, hidle⟩)
  · exact .inr (.inl ⟨_, haccept⟩)
  · exact .inr (.inl ⟨_, hwait⟩)
  · exact .inr (.inr ⟨w, hdue⟩)

/-- R21: every edge gives a next state. -/
theorem step_next (s : State) : ∃ t, step s = .next t := by
  rcases step_kinds s with ⟨-, hreset⟩ | ⟨f, hport⟩ | ⟨w, -, hdue⟩
  · exact ⟨_, hreset⟩
  · exact ⟨_, hport⟩
  · obtain ⟨t, ht, -⟩ := runCommand_next w { s.tick with inFlight := none, rspValid := true }
    exact ⟨t, hdue.trans ht⟩

/-- `step_kinds` of a step that was made, as to the registers alone. -/
theorem step_registers {s t : State} (h : step s = .next t) :
    (s.input.rst = true ∧ t = resetBlock s.tick) ∨ SameRegisters s t ∨
    ∃ w u, s.inFlight = some ⟨w, 0⟩ ∧ SameRegisters s u ∧ runCommand w u = .next t := by
  rcases step_kinds s with ⟨hr, hreset⟩ | ⟨f, hport⟩ | ⟨w, hf, hdue⟩
  · cases hreset.symm.trans h
    exact .inl ⟨hr, rfl⟩
  · cases hport.symm.trans h
    exact .inr (.inl (sameRegisters_of_port s false f _))
  · exact .inr (.inr ⟨w, _, hf, sameRegisters_of_port s true none s.schedule.tail, hdue.symm.trans h⟩)

/-- After every edge `rsp_valid` implies a free port: only a completion sets it (R19). -/
theorem inFlight_none_of_rspValid {s t : State} (h : step s = .next t) (hv : t.rspValid = true) : t.inFlight = none := by
  rcases step_kinds s with ⟨-, hreset⟩ | ⟨f, hport⟩ | ⟨w, -, hdue⟩
  · cases hreset.symm.trans h
    rfl
  · cases hport.symm.trans h
    exact absurd hv Bool.false_ne_true
  · exact of_runCommand (hdue.symm.trans h) fun _ hend => (portKept_of_ending hend).inFlight

theorem registersLegal_of_sameRegisters {s t : State} (h : SameRegisters s t) (hs : RegistersLegal s) : RegistersLegal t := by
  simpa only [RegistersLegal, h.stat, h.rsense, h.res, h.aux, h.errval] using hs

theorem calibratedWith_of_sameRegisters {r : Half} {s t : State} (h : SameRegisters s t) (hs : CalibratedWith r s) :
    CalibratedWith r t := by
  simpa only [CalibratedWith, h.stat, h.rsense] using hs

theorem param_of_sameRegisters {s t : State} (h : SameRegisters s t) (j : Fin 6) : t.param j = s.param j := by
  simp only [State.param, h.p]

/-- The registers that reset gives are legal, whatever the host drives next. -/
theorem registersLegal_resetBlock (s : State) : RegistersLegal (resetBlock s) := by
  simp only [RegistersLegal, resetBlock_stat, resetBlock_rsense, resetBlock_res, resetBlock_aux, resetBlock_errval]
  decide

/-! ### An accepted command until its completion (R19) -/

/-- `s` with the word `w` accepted, `n` edges before the one that completes it, and `coming` what the host will drive. -/
def State.accepted (s : State) (w : Word) (n : Nat) (coming : List EdgeInput) : State :=
  { s with rspValid := false, inFlight := some ⟨w, n⟩, schedule := coming }

/-- One edge, then the rest from the state it leaves. -/
theorem runEdges_succ {s t : State} (h : step s = .next t) (k : Nat) : runEdges (k + 1) s = runEdges k t := by
  simp only [runEdges, h]

/-- The edge that accepts. -/
theorem step_accepts {s : State} {w : Word} {n : Nat} {coming : List EdgeInput} (hf : s.inFlight = none)
    (hs : s.schedule = ⟨false, true, w, n⟩ :: coming) : step s = .next (s.accepted w n coming) := by
  have hin : s.input = ⟨false, true, w, n⟩ := by simp [State.input, hs]
  rw [step_of_accept (by rw [hin]) hf (by rw [hin]), hin]
  simp [State.tick, State.accepted, hs]

/-- An edge at which the accepted command waits. -/
theorem step_waits (s : State) (w : Word) (n : Nat) {e : EdgeInput} (he : e.rst = false) (coming : List EdgeInput) :
    step (s.accepted w (n + 1) (e :: coming)) = .next (s.accepted w n coming) :=
  step_of_wait (s := s.accepted w (n + 1) (e :: coming)) he rfl

/-- The edge that completes the accepted command. -/
theorem step_completes (s : State) (w : Word) {e : EdgeInput} (he : e.rst = false) (coming : List EdgeInput) :
    step (s.accepted w 0 (e :: coming)) = runCommand w { s with inFlight := none, rspValid := true, schedule := coming } :=
  step_of_due (s := s.accepted w 0 (e :: coming)) he rfl

/-- An accepted command waits as many edges as it has left, if the host does not reset. -/
theorem runEdges_waits (s : State) (w : Word) (m k : Nat) (rest : List EdgeInput) :
    ∀ waiting : List EdgeInput, (∀ e ∈ waiting, e.rst = false) →
      runEdges (waiting.length + k) (s.accepted w (waiting.length + m) (waiting ++ rest)) = runEdges k (s.accepted w m rest)
  | [], _ => by simp
  | e :: es, hrst => by
    obtain ⟨he, hes⟩ := List.forall_mem_cons.mp hrst
    have hwait := step_waits s w (es.length + m) he (es ++ rest)
    rw [← runEdges_waits s w m k rest es hes, ← runEdges_succ hwait, List.length_cons, Nat.succ_add_eq_add_succ,
      Nat.succ_add_eq_add_succ]
    rfl

/-- Before the completing edge: after the accepting edge and `j` more, at most `n`, the command still waits. -/
theorem runEdges_before_completion {s : State} {w : Word} {n j : Nat} {waiting rest : List EdgeInput} (hf : s.inFlight = none)
    (hs : s.schedule = ⟨false, true, w, n⟩ :: (waiting ++ rest)) (hlen : waiting.length = n + 1)
    (hrst : ∀ e ∈ waiting, e.rst = false) (hj : j ≤ n) :
    runEdges (j + 1) s = .next (s.accepted w (n - j) (waiting.drop j ++ rest)) := by
  have htake : (waiting.take j).length = j := by rw [List.length_take]; omega
  have hwaits := runEdges_waits s w (n - j) 0 (waiting.drop j ++ rest) (waiting.take j)
    fun e he => hrst e (List.mem_of_mem_take he)
  rw [← List.append_assoc, List.take_append_drop, htake, Nat.add_sub_cancel' hj] at hwaits
  exact (runEdges_succ (step_accepts hf hs) j).trans hwaits

/-- At the completing edge the word runs, on the registers as they were at acceptance. -/
theorem runEdges_at_completion {s : State} {w : Word} {n : Nat} {waiting rest : List EdgeInput} (hf : s.inFlight = none)
    (hs : s.schedule = ⟨false, true, w, n⟩ :: (waiting ++ rest)) (hlen : waiting.length = n + 1)
    (hrst : ∀ e ∈ waiting, e.rst = false) {t : State}
    (ht : runCommand w { s with inFlight := none, rspValid := true, schedule := rest } = .next t) :
    runEdges (n + 2) s = .next t := by
  obtain rfl | ⟨before, last, rfl⟩ := waiting.eq_nil_or_concat'
  · simp at hlen
  obtain rfl : before.length = n := by simpa using hlen
  obtain ⟨hbefore, hlast⟩ := List.forall_mem_append.mp hrst
  have hcompletes := (step_completes s w (hlast last (List.mem_singleton_self last)) rest).trans ht
  rw [runEdges_succ (step_accepts hf hs), List.append_assoc]
  exact (runEdges_waits s w 0 1 (last :: rest) before hbefore).trans (runEdges_succ hcompletes 0)

/-- R19 at an edge at which the port is free. -/
theorem step_of_free {s : State} (hr : s.input.rst = false) (hf : s.inFlight = none) :
    ∃ t, step s = .next t ∧ SameRegisters s t ∧ t.rspValid = false ∧
      t.inFlight = if s.input.cmdValid then some ⟨s.input.cmdWord, s.input.extraEdges⟩ else none := by
  cases hv : s.input.cmdValid
  · exact ⟨_, step_of_idle hr hf hv, sameRegisters_of_port s _ s.inFlight _, rfl, hf⟩
  · exact ⟨_, step_of_accept hr hf hv, sameRegisters_of_port s _ _ _, rfl, rfl⟩

/-- R19 at an edge at which a command is in flight: it is one edge nearer to completion, and no other is accepted. -/
theorem step_of_inFlight {s : State} {c : InFlight} (hr : s.input.rst = false) (hf : s.inFlight = some c) :
    ∃ t, step s = .next t ∧ t.inFlight = if c.edgesLeft = 0 then none else some ⟨c.word, c.edgesLeft - 1⟩ := by
  obtain ⟨w, _ | n⟩ := c
  · obtain ⟨t, ht, hport⟩ := runCommand_next w { s.tick with inFlight := none, rspValid := true }
    exact ⟨t, (step_of_due hr hf).trans ht, hport.inFlight⟩
  · exact ⟨_, step_of_wait hr hf, rfl⟩

/-! ### The result registers (R14, R15) -/

/-- What holds of an exception, and of what follows a check that passes, holds of the check. -/
theorem unlessRaise_ind {P : State → Prop} {ok : Bool} {e : Cause} {info : Word} {s goOn : State}
    (hraise : P (raise e info s)) (hgo : ok = true → P goOn) : P (unlessRaise ok e info s goOn) := by
  rcases unlessRaise_cases ok e info s goOn with ⟨hok, h⟩ | ⟨-, h⟩ <;> rw [h]
  · exact hgo hok
  · exact hraise

/-- Bit 31 of a narrower value, widened with zeros, is 0. -/
theorem msb_zext32 {n : Nat} (hn : n ≤ 31) (v : BitVec n) : (zext32 v).msb = false := by
  simp [zext32, BitVec.msb_setWidth, BitVec.getLsbD_of_ge v 31 hn]

/-- Bit 31 of a small integer that is not negative is 0. -/
theorem msb_enc32 {n : Int} (h0 : 0 ≤ n) (h : n < 2 ^ 31) : (enc32 n).msb = false := by
  have hval : (enc32 n).toInt = n := sval_enc32 (by omega) h
  rw [BitVec.msb_eq_toInt, hval, decide_eq_false (by omega)]

/-- A raw value or a byte, times a constant of at most 15 bits, leaves bit 31 free. -/
theorem uval_mul_lt {n : Nat} (hn : n ≤ 16) (v : BitVec n) {k : Int} (hk0 : 0 ≤ k) (hk : k ≤ 2 ^ 15) :
    uval v * k < 2 ^ 31 := by
  obtain ⟨-, h⟩ := uval_mul_range hn v (k := 2 * k) (by omega) (by omega)
  rw [mul_left_comm] at h
  omega

theorem msb_enc32_mul {n : Nat} (hn : n ≤ 16) (v : BitVec n) {k : Int} (hk0 : 0 ≤ k) (hk : k ≤ 2 ^ 15) :
    (enc32 (uval v * k)).msb = false :=
  msb_enc32 (mul_nonneg (uval_nonneg v) hk0) (uval_mul_lt hn v hk0 hk)

/-- CCAP's quotient, by any `RSENSE` (spec/40_conversion.md R66). -/
theorem msb_enc32_capacity (imm rsense : Half) : (enc32 (tdiv (uval imm * Config.kCap) (uval rsense))).msb = false := by
  have h0 : 0 ≤ uval imm * Config.kCap := mul_nonneg (uval_nonneg imm) (by decide)
  have hle : tdiv (uval imm * Config.kCap) (uval rsense) ≤ uval imm * Config.kCap :=
    (le_abs_self _).trans ((abs_tdiv_le _ _).trans_eq (abs_of_nonneg h0))
  exact msb_enc32 (Int.tdiv_nonneg h0 (uval_nonneg rsense)) (hle.trans_lt (uval_mul_lt le_rfl imm (by decide) (by decide)))

/-- The predicate in the words of spec/42_threshold.md R75. -/
theorem validVth_iff {v : Int} : validVth v = true ↔ IsThreshold v := by
  simp only [validVth, Bool.and_eq_true, decide_eq_true_eq, and_assoc]
  rfl

/-- The byte of a valid threshold (spec/42_threshold.md R77). -/
theorem msb_enc32_vthByte {v : Int} (h : validVth v = true) : (enc32 (vthByte v)).msb = false := by
  obtain ⟨h0, hmax, -⟩ := validVth_iff.mp h
  have hbyte : vthByte v = v / 20 := rfl
  rw [hbyte]
  exact msb_enc32 (by omega) (by omega)

theorem msb_raise_res (e : Cause) (info : Word) (s : State) : (raise e info s).res.msb = false := by
  rw [raise_res]; decide

/-- EVTH, PACK and PACKS answer a pair, which has 16 bits, or fail. -/
theorem res_msb_encodePair (ok : Half → Bool) (widen : Half → Word) (toByte : Half → Byte) (s : State) :
    (encodePair ok widen toByte s).res.msb = false := by
  rcases encodePair_cases ok widen toByte s with ⟨-, h⟩ | ⟨-, -, h⟩ | ⟨-, -, h⟩ <;> rw [h]
  · exact msb_raise_res _ _ s
  · exact msb_raise_res _ _ s
  · exact msb_zext32 (by decide) _

/-- Whatever EVTH, PACK and PACKS do, `AUX` is zero. -/
theorem aux_encodePair (ok : Half → Bool) (widen : Half → Word) (toByte : Half → Byte) (s : State) :
    (encodePair ok widen toByte s).aux = 0#32 := by
  rcases encodePair_cases ok widen toByte s with ⟨-, h⟩ | ⟨-, -, h⟩ | ⟨-, -, h⟩ <;> rw [h] <;> rfl

/-- PCFG answers a code, which has 16 bits, or fails. -/
theorem res_msb_encodeConfig (m : Config.Masks) (s : State) : (encodeConfig m s).res.msb = false := by
  rcases encodeConfig_cases m s with ⟨k, h⟩ | h <;> rw [h]
  · exact msb_raise_res _ _ s
  · exact msb_zext32 (by decide) _

/-- Whatever PCFG does, `AUX` is zero. -/
theorem aux_encodeConfig (m : Config.Masks) (s : State) : (encodeConfig m s).aux = 0#32 := by
  rcases encodeConfig_cases m s with ⟨k, h⟩ | h <;> rw [h] <;> rfl

/-- R14, one case for each computing command whose result is unsigned. -/
theorem res_msb_of_exec {i : Instr} {s t : State} (ht : exec i s = .next t) (hcomputing : isHousekeeping i = false)
    (hunsigned : ∀ imm, i ≠ .ctemp imm ∧ i ≠ .ccur imm ∧ i ≠ .unpks imm) : t.res.msb = false := by
  cases i with
  | ldrs | ldp | clre => exact absurd hcomputing.symm Bool.false_ne_true
  | ctemp imm | ccur imm | unpks imm =>
    obtain ⟨hctemp, hccur, hunpks⟩ := hunsigned imm
    contradiction
  | cvolt imm | ctime imm => cases ht; exact msb_enc32_mul le_rfl imm (by decide) (by decide)
  | cpct imm | etemp imm | unpk imm => cases ht; exact msb_zext32 (by decide) _
  | ccap imm =>
    cases ht
    exact unlessRaise_ind (P := fun u => u.res.msb = false) (msb_raise_res _ _ s) fun _ => msb_enc32_capacity imm s.rsense
  | cvthb imm =>
    cases ht
    exact unlessRaise_ind (P := fun u => u.res.msb = false) (msb_raise_res _ _ s) fun _ =>
      msb_enc32_mul (by decide) (loByte imm) (by decide) (by decide)
  | dvth imm => cases ht; exact msb_enc32_mul (by decide) (hiByte imm) (by decide) (by decide)
  | pcfg => cases ht; exact res_msb_encodeConfig _ s
  | vvth imm => cases ht; rw [doneResult_res]; split <;> decide
  | evthb imm =>
    cases ht
    exact unlessRaise_ind (P := fun u => u.res.msb = false) (msb_raise_res _ _ s) msb_enc32_vthByte
  | evth | pack | packs => cases ht; exact res_msb_encodePair _ _ _ s

/-- R15, one case for each computing command that does not use `AUX`. -/
theorem aux_zero_of_exec {i : Instr} {s t : State} (ht : exec i s = .next t) (hcomputing : isHousekeeping i = false)
    (hunused : ∀ imm, i ≠ .ccap imm ∧ i ≠ .ccur imm ∧ i ≠ .unpk imm ∧ i ≠ .unpks imm ∧ i ≠ .dvth imm) : t.aux = 0#32 := by
  cases i with
  | ldrs | ldp | clre => exact absurd hcomputing.symm Bool.false_ne_true
  | ccap imm | ccur imm | unpk imm | unpks imm | dvth imm =>
    obtain ⟨hccap, hccur, hunpk, hunpks, hdvth⟩ := hunused imm
    contradiction
  | cvolt | cpct | ctemp | ctime | etemp | vvth => cases ht; rfl
  | cvthb | evthb => cases ht; exact unlessRaise_ind (P := fun u => u.aux = 0#32) rfl fun _ => rfl
  | pcfg => cases ht; exact aux_encodeConfig _ s
  | evth | pack | packs => cases ht; exact aux_encodePair _ _ _ s

/-! ### Two runs of one command (R12, R122) -/

/-- Two states that report the same outcome: `ERR` and `ERRVAL`. -/
structure SameReport (t t' : State) : Prop where
  err : statErr t'.stat = statErr t.stat
  errval : t'.errval = t.errval

/-- Two states that hold the same answer of a computing command: its report, and `RES`, `AUX` and `RV`. -/
structure SameAnswer (t t' : State) : Prop extends SameReport t t' where
  res : t'.res = t.res
  aux : t'.aux = t.aux
  rv : statRv t'.stat = statRv t.stat

theorem sameAnswer_doneResult (r a : Word) (s s' : State) : SameAnswer (doneResult r a s) (doneResult r a s') :=
  ⟨⟨by simp, rfl⟩, rfl, rfl, by simp⟩

theorem sameAnswer_raise (e : Cause) (info : Word) (s s' : State) : SameAnswer (raise e info s) (raise e info s') :=
  ⟨⟨by simp, rfl⟩, rfl, rfl, by simp⟩

theorem sameReport_doneHousekeeping (s s' : State) : SameReport (doneHousekeeping s) (doneHousekeeping s') :=
  ⟨by simp, rfl⟩

/-- The same check in two runs ends both or lets both go on. -/
theorem unlessRaise_rel {R : State → State → Prop} {ok : Bool} {e : Cause} {info : Word} {s s' goOn goOn' : State}
    (hraise : R (raise e info s) (raise e info s')) (hgo : R goOn goOn') :
    R (unlessRaise ok e info s goOn) (unlessRaise ok e info s' goOn') := by
  cases ok
  · exact hraise
  · exact hgo

theorem sameAnswer_unlessRaise {ok : Bool} {e : Cause} {info : Word} {s s' goOn goOn' : State} (hgo : SameAnswer goOn goOn') :
    SameAnswer (unlessRaise ok e info s goOn) (unlessRaise ok e info s' goOn') :=
  unlessRaise_rel (sameAnswer_raise e info s s') hgo

/-- CCAP and CCUR read the calibration only. -/
theorem sameAnswer_divideByRsense (n : Int) (imm : Half) {s s' : State} (hr : s'.rsense = s.rsense)
    (hc : statCalv s'.stat = statCalv s.stat) : SameAnswer (divideByRsense n imm s) (divideByRsense n imm s') := by
  simp only [divideByRsense, hr, hc]
  exact sameAnswer_unlessRaise (sameAnswer_doneResult _ _ s s')

/-- EVTH, PACK and PACKS read `P[0]` and `P[1]` only. -/
theorem sameAnswer_encodePair (ok : Half → Bool) (widen : Half → Word) (toByte : Half → Byte) {s s' : State}
    (h0 : s'.param 0 = s.param 0) (h1 : s'.param 1 = s.param 1) :
    SameAnswer (encodePair ok widen toByte s) (encodePair ok widen toByte s') := by
  simp only [encodePair, h0, h1]
  exact sameAnswer_unlessRaise <| sameAnswer_unlessRaise <| sameAnswer_doneResult _ _ s s'

/-- PCFG reads `P[0..5]` only. -/
theorem sameAnswer_encodeConfig (m : Config.Masks) {s s' : State} (h : ∀ k, s'.param k = s.param k) :
    SameAnswer (encodeConfig m s) (encodeConfig m s') := by
  simp only [encodeConfig, h]
  exact sameAnswer_unlessRaise <| sameAnswer_unlessRaise <| sameAnswer_unlessRaise <| sameAnswer_unlessRaise <|
    sameAnswer_unlessRaise <| sameAnswer_unlessRaise <| sameAnswer_doneResult _ _ s s'

/-- R12, R122 for each computing command. -/
theorem sameAnswer_of_exec {i : Instr} {s s' t t' : State} (hagree : inputsAgree i s s') (hcomputing : isHousekeeping i = false)
    (ht : exec i s = .next t) (ht' : exec i s' = .next t') : SameAnswer t t' := by
  cases i with
  | ldrs | ldp | clre => exact absurd hcomputing.symm Bool.false_ne_true
  | cvolt | cpct | ctemp | ctime | etemp | vvth | unpk | unpks | dvth =>
    cases ht; cases ht'
    exact sameAnswer_doneResult _ _ s s'
  | cvthb | evthb =>
    cases ht; cases ht'
    exact sameAnswer_unlessRaise (sameAnswer_doneResult _ _ s s')
  | ccap imm | ccur imm =>
    cases ht; cases ht'
    obtain ⟨hr, hc⟩ := hagree
    exact sameAnswer_divideByRsense _ imm hr hc
  | pcfg =>
    cases ht; cases ht'
    exact sameAnswer_encodeConfig _ hagree
  | evth | pack | packs =>
    cases ht; cases ht'
    obtain ⟨h0, h1⟩ := hagree
    exact sameAnswer_encodePair _ _ _ h0 h1

/-- LDRS reads `CALV` only. -/
theorem sameReport_ldrs {imm : Half} {s s' t t' : State} (hc : statCalv s'.stat = statCalv s.stat)
    (ht : exec (.ldrs imm) s = .next t) (ht' : exec (.ldrs imm) s' = .next t') : SameReport t t' := by
  cases ht; cases ht'
  simp only [hc]
  exact unlessRaise_rel (sameAnswer_raise _ _ s s').toSameReport <|
    unlessRaise_rel (sameAnswer_raise _ _ s s').toSameReport (sameReport_doneHousekeeping _ _)

/-- LDP reads no state: which register it loads, and whether it names one, are its operand's. -/
theorem sameReport_ldp {k : BitVec 3} {imm : Half} {s s' t t' : State} (ht : exec (.ldp k imm) s = .next t)
    (ht' : exec (.ldp k imm) s' = .next t') : SameReport t t' := by
  simp only [exec, execLdp] at ht ht'
  cases hk : paramIndex k with
  | some j =>
    rw [hk] at ht ht'
    cases ht; cases ht'
    exact sameReport_doneHousekeeping _ _
  | none =>
    rw [hk] at ht ht'
    cases ht; cases ht'
    exact (sameAnswer_raise _ _ s s').toSameReport

/-- R12, R122 for every command, as to `ERR` and `ERRVAL`. -/
theorem sameReport_of_exec {i : Instr} {s s' t t' : State} (hagree : inputsAgree i s s')
    (ht : exec i s = .next t) (ht' : exec i s' = .next t') : SameReport t t' := by
  cases hhousekeeping : isHousekeeping i with
  | false => exact (sameAnswer_of_exec hagree hhousekeeping ht ht').toSameReport
  | true =>
    cases i with
    | ldrs imm => exact sameReport_ldrs hagree ht ht'
    | ldp k imm => exact sameReport_ldp ht ht'
    | clre =>
      cases ht; cases ht'
      exact sameReport_doneHousekeeping _ _
    | cvolt | cpct | ctemp | ccap | ccur | ctime | cvthb | etemp | pcfg | vvth | evthb | evth | pack | packs | unpk | unpks
    | dvth => exact absurd hhousekeeping Bool.false_ne_true

/-! ### The statements -/

/-- Settles O15: an edge resets, keeps or runs a word, each of which leaves legal registers (`registersLegal_of_ending`). -/
theorem stepKeepsRegistersLegal : Obligations.StepKeepsRegistersLegal := by
  rintro s t ⟨hlegal, -⟩ h
  refine ⟨?_, inFlight_none_of_rspValid h⟩
  rcases step_registers h with ⟨-, rfl⟩ | hsame | ⟨w, u, -, hsame, hrun⟩
  · exact registersLegal_resetBlock s.tick
  · exact registersLegal_of_sameRegisters hsame hlegal
  · exact of_runCommand hrun fun _ => registersLegal_of_ending (registersLegal_of_sameRegisters hsame hlegal)

/-- Settles O12, by induction on the edges at which the command waits (`runEdges_waits`). -/
theorem acceptedCommandCompletesAfterLat : Obligations.AcceptedCommandCompletesAfterLat := by
  refine ⟨fun _ => step_of_free, fun _ _ => step_of_inFlight, fun s w n waiting rest hf hs hlen hrst => ⟨?_, ?_⟩⟩
  · rintro (_ | j) h1 hk
    · omega
    · exact ⟨_, runEdges_before_completion hf hs hlen hrst (by omega), sameRegisters_of_port s _ _ _, rfl, rfl⟩
  · obtain ⟨t, ht, hport⟩ := runCommand_next w { s with inFlight := none, rspValid := true, schedule := rest }
    exact ⟨t, runEdges_at_completion hf hs hlen hrst ht, ht, by rw [State.cmdReady, hport.inFlight]; rfl, hport.rspValid,
      hport.schedule⟩

/-- Settles O17: `CalibratedWith` is kept by every ending of a command, hence by a list of words and by an edge. -/
theorem calibrationIsWriteOnce : Obligations.CalibrationIsWriteOnce := by
  refine ⟨fun ws s t hcalv h => ?_, fun s t hr hcalv h => ?_⟩
  · exact runCommands_preserves (P := CalibratedWith s.rsense)
      (fun _ _ _ hs hrun => of_runCommand hrun fun _ => calibratedWith_of_ending hs) ws ⟨hcalv, rfl⟩ h
  · have hs : CalibratedWith s.rsense s := ⟨hcalv, rfl⟩
    rcases step_registers h with ⟨hreset, -⟩ | hsame | ⟨w, u, -, hsame, hrun⟩
    · exact absurd (hr.symm.trans hreset) Bool.false_ne_true
    · exact calibratedWith_of_sameRegisters hsame hs
    · exact of_runCommand hrun fun _ => calibratedWith_of_ending (calibratedWith_of_sameRegisters hsame hs)

/-- Settles O18: no ending but that of LDP changes a parameter register (`ldp_of_param_ne`). -/
theorem onlyLdpAndResetWriteParameters : Obligations.OnlyLdpAndResetWriteParameters := by
  refine ⟨fun i s t j h hne => ldp_of_param_ne (ending_of_exec h) hne, fun s t j h hne => ?_⟩
  rcases step_registers h with ⟨hr, rfl⟩ | hsame | ⟨w, u, hf, hsame, hrun⟩
  · exact .inl ⟨hr, by simp [State.param]⟩
  · exact absurd (param_of_sameRegisters hsame j) hne
  · rw [← param_of_sameRegisters hsame j] at hne
    rcases ending_of_runCommand hrun with ⟨i, hdec, hend⟩ | rfl
    · obtain ⟨k, imm, rfl, hk, himm⟩ := ldp_of_param_ne hend hne
      exact .inr ⟨_, k, imm, hf, rfl, hdec, hk, himm⟩
    · exact absurd (raise_param _ _ u j) hne

/-- Settles O19, by the range of each result: a widened narrower value, a product of R62, a quotient, a byte, an answer, or the
zero of a failure. -/
theorem resultRegisterRules : Obligations.ResultRegisterRules :=
  fun _ _ _ ht hcomputing => ⟨res_msb_of_exec ht hcomputing, aux_zero_of_exec ht hcomputing⟩

/-- Settles O22: two runs of a command make the same checks on the same values and end alike. -/
theorem commandsReadOnlyTheirInputs : Obligations.CommandsReadOnlyTheirInputs := by
  intro i s s' t t' hagree ht ht'
  obtain ⟨herr, herrval⟩ := sameReport_of_exec hagree ht ht'
  refine ⟨herr, herrval, fun hcomputing => ?_⟩
  obtain ⟨-, hres, haux, hrv⟩ := sameAnswer_of_exec hagree hcomputing ht ht'
  exact ⟨hres, haux, hrv⟩

/-- Settles O9, by what an edge does when a command is due. -/
theorem stepRunsTheDecodedCommand : Obligations.StepRunsTheDecodedCommand :=
  fun _ _ _ hf hr hdec => (step_of_due hr hf).trans (runCommand_of_decode hdec _)

/-- Settles O11, by the cases of a word and of an edge. -/
theorem nothingEverStops : Obligations.NothingEverStops := by
  refine ⟨fun w s => ?_, step_next⟩
  obtain ⟨t, ht, -⟩ := runCommand_next w s
  exact ⟨t, ht⟩

/-- Settles O14, by evaluating the one state it is about. -/
theorem resetStateIsAllZero : Obligations.ResetStateIsAllZero := by
  unfold Obligations.ResetStateIsAllZero
  decide

/-- Settles O16: the registers after reset are those that an edge with reset leaves. -/
theorem resetRegistersLegal : Obligations.ResetRegistersLegal :=
  ⟨registersLegal_resetBlock State.reset, nofun⟩

end Sys2Proof.Machine

/-! PROOFS of the statements of spec/20_memory.md: a command issued again (R36). -/

namespace Sys2Proof.Machine

/-! ### What a repeat finds: the inputs as they were, and a sticky flag that already counts the failure -/

/-- A state is its registers and its port. -/
theorem eq_of_sameRegisters {s t : State} (h : SameRegisters s t) (hport : PortKept s t) : t = s := by
  obtain ⟨hp, hrsense, hres, haux, hstat, herrval⟩ := h
  obtain ⟨hvalid, hflight, hschedule⟩ := hport
  cases s; cases t
  congr

/-- No command writes the reserved bits of `STAT` (R16). -/
theorem statReserved_of_ending {i : Instr} {s t : State} (h : Ending i s t) :
    statReserved t.stat = statReserved s.stat := by
  cases h <;> simp

/-- A computing command leaves every input of a command as it was (R100, R101). -/
theorem sameInputs_of_ending {i : Instr} {s t : State} (h : Ending i s t) (hcomputing : isHousekeeping i = false) :
    SameInputs s t := by
  cases h with
  | loaded _ _ hi | calibrated _ hi | cleared hi => subst hi; exact absurd hcomputing.symm Bool.false_ne_true
  | result | notCalibrated | calLocked | invalid | illegal => exact ⟨rfl, rfl, by simp⟩

/-- `SE` after a command other than CLRE: set by a failure, else as it was (R100, R101). -/
theorem statSe_of_ending {i : Instr} {s t : State} (h : Ending i s t) (hclre : i ≠ .clre) :
    statSe t.stat = (statSe s.stat || statErr t.stat != 0#3) := by
  cases h with
  | cleared hi => exact absurd hi hclre
  | result | loaded | calibrated => simp
  | notCalibrated | calLocked | invalid | illegal => simp [statusCode]

/-- All that a command may read is among the inputs (R12). -/
theorem inputsAgree_of_sameInputs (i : Instr) {s t : State} (h : SameInputs s t) : inputsAgree i s t := by
  have hparam (k : Fin 6) : t.param k = s.param k := by rw [State.param, State.param, h.p]
  cases i with
  | pcfg => exact hparam
  | evth | pack | packs => exact ⟨hparam 0, hparam 1⟩
  | ccap | ccur => exact ⟨h.rsense, h.calv⟩
  | ldrs => exact h.calv
  | ldp | clre | cvolt | cpct | ctemp | ctime | cvthb | etemp | vvth | evthb | unpk | unpks | dvth => trivial

/-! ### The repeat of a computing command, of LDP and of CLRE -/

/-- The repeat of a computing command reads the same inputs, so it gives the same answer; `SE` is set already if that is a
failure. -/
theorem exec_repeat_of_computing {i : Instr} {s t : State} (hcomputing : isHousekeeping i = false)
    (h : exec i s = .next t) : exec i t = .next t := by
  have hend : Ending i s t := ending_of_exec h
  obtain ⟨u, hu, hend'⟩ := exec_ending i t
  have hclre : i ≠ .clre := by rintro rfl; exact absurd hcomputing.symm Bool.false_ne_true
  have hanswer : SameAnswer t u :=
    sameAnswer_of_exec (inputsAgree_of_sameInputs i (sameInputs_of_ending hend hcomputing)) hcomputing h hu
  have hkept : SameInputs t u := sameInputs_of_ending hend' hcomputing
  have hse : statSe u.stat = statSe t.stat := by
    rw [statSe_of_ending hend' hclre, hanswer.err, statSe_of_ending hend hclre, Bool.or_assoc, Bool.or_self]
  have hstat : u.stat = t.stat := stat_ext (statReserved_of_ending hend') hse hkept.calv hanswer.rv hanswer.err
  rw [hu, eq_of_sameRegisters ⟨hkept.p, hkept.rsense, hanswer.res, hanswer.aux, hstat, hanswer.errval⟩
    (portKept_of_ending hend')]

/-- Of two status codes written the last one stands. -/
@[simp] theorem statWithErr_withErr (st : Half) (err err' : BitVec 3) :
    statWithErr (statWithErr st err) err' = statWithErr st err' := by
  simp [statWithErr]

/-- Taking the same exception again changes nothing more (R101). -/
theorem raise_raise (e : Cause) (info : Word) (s : State) : raise e info (raise e info s) = raise e info s :=
  eq_of_sameRegisters ⟨rfl, rfl, rfl, rfl, stat_ext (by simp) (by simp) (by simp) (by simp) (by simp), rfl⟩ ⟨rfl, rfl, rfl⟩

/-- Loading the same value again changes nothing more (R91). -/
theorem load_load (s : State) (k : Fin 6) (v : Half) :
    doneHousekeeping ((doneHousekeeping (s.withParam k v)).withParam k v) = doneHousekeeping (s.withParam k v) :=
  eq_of_sameRegisters ⟨by simp, rfl, rfl, rfl, by simp, rfl⟩ ⟨rfl, rfl, rfl⟩

/-- The repeat of LDP loads the same register again, or is as illegal as before (R50 d, log 8). -/
theorem exec_ldp_repeat {k : BitVec 3} {imm : Half} {s t : State} (h : exec (.ldp k imm) s = .next t) :
    exec (.ldp k imm) t = .next t := by
  simp only [exec, execLdp] at h ⊢
  cases hk : paramIndex k with
  | some j =>
    rw [hk] at h
    cases h
    exact congrArg Host.Outcome.next (load_load s j imm)
  | none =>
    rw [hk] at h
    cases h
    exact congrArg Host.Outcome.next (raise_raise _ _ s)

/-- The repeat of CLRE clears a flag that is clear (R92). -/
theorem exec_clre_repeat {s t : State} (h : exec .clre s = .next t) : exec .clre t = .next t := by
  cases h
  exact congrArg Host.Outcome.next (eq_of_sameRegisters
    ⟨rfl, rfl, rfl, rfl, stat_ext (by simp) (by simp) (by simp) (by simp) (by simp), rfl⟩ ⟨rfl, rfl, rfl⟩)

/-! ### The statement -/

/-- Settles O25: the repeat of a computing command answers from unchanged inputs; LDP and CLRE write the same values again. -/
theorem repeatedCommandChangesNothing : Obligations.RepeatedCommandChangesNothing := by
  intro i s t hldrs h
  cases hhousekeeping : isHousekeeping i with
  | false => exact exec_repeat_of_computing hhousekeeping h
  | true =>
    cases i with
    | ldrs imm => exact absurd rfl (hldrs imm)
    | ldp => exact exec_ldp_repeat h
    | clre => exact exec_clre_repeat h
    | cvolt | cpct | ctemp | ccap | ccur | ctime | cvthb | etemp | pcfg | vvth | evthb | evth | pack | packs | unpk | unpks
    | dvth => exact absurd hhousekeeping Bool.false_ne_true

end Sys2Proof.Machine

/-! PROOFS of the statements of spec/30_encoding.md: the decoder and the encoder (R45 to R51), the assembler's lines (R53) and the
pseudo-instructions (R54, R55). -/

namespace Sys2Proof

/-! ### What the decoder answers, said once by format (R46 to R48) -/

/-- The opcodes of format I (R46). -/
def formatIOpcodes : List (BitVec 8) :=
  [0x01#8, 0x10#8, 0x11#8, 0x12#8, 0x13#8, 0x14#8, 0x15#8, 0x16#8, 0x17#8, 0x30#8, 0x31#8, 0x35#8, 0x36#8, 0x37#8]

/-- The opcodes of format N (R48). -/
def formatNOpcodes : List (BitVec 8) := [0x03#8, 0x20#8, 0x32#8, 0x33#8, 0x34#8]

/-- The 20 opcodes in the order of the opcode map. -/
def opcodes : List (BitVec 8) :=
  [0x01#8, 0x02#8, 0x03#8, 0x10#8, 0x11#8, 0x12#8, 0x13#8, 0x14#8, 0x15#8, 0x16#8, 0x17#8, 0x20#8, 0x30#8, 0x31#8, 0x32#8, 0x33#8,
    0x34#8, 0x35#8, 0x36#8, 0x37#8]

/-- What the decoder can answer for a word, by the word's opcode: the answer of one of the three formats for a command with that
opcode, or that the opcode is none. -/
inductive Decoded (w : Word) : Except DecodeError Instr → Prop where
  | immediate (command : Half → Instr) (opc : cmdOpc w ∈ formatIOpcodes)
      (encodes : ∀ imm, encode (command imm) = commandWord (cmdOpc w) 0#8 imm)
      (wellFormed : ∀ imm, (command imm).wellFormed = true) : Decoded w (formatI w command)
  | parameter (opc : cmdOpc w = 0x02#8) : Decoded w (formatP w .ldp)
  | plain (command : Instr) (opc : cmdOpc w ∈ formatNOpcodes) (encodes : encode command = commandWord (cmdOpc w) 0#8 0#16)
      (wellFormed : command.wellFormed = true) : Decoded w (formatN w command)
  | unknown (opc : cmdOpc w ∉ opcodes) : Decoded w (.error .unknownOpcode)

/-- An opcode by its number, as `decode` tells the arms apart. -/
theorem cmdOpc_of_toNat {w : Word} {n : Nat} (h : (cmdOpc w).toNat = n) : cmdOpc w = BitVec.ofNat 8 n := by
  rw [← h, BitVec.ofNat_toNat, BitVec.setWidth_eq]

theorem Decoded.immediate_of_toNat {w : Word} {n : Nat} {command : Half → Instr} (h : (cmdOpc w).toNat = n)
    (opc : BitVec.ofNat 8 n ∈ formatIOpcodes) (encodes : ∀ imm, encode (command imm) = commandWord (BitVec.ofNat 8 n) 0#8 imm)
    (wellFormed : ∀ imm, (command imm).wellFormed = true) : Decoded w (formatI w command) := by
  rw [← cmdOpc_of_toNat h] at opc encodes
  exact .immediate command opc encodes wellFormed

theorem Decoded.plain_of_toNat {w : Word} {n : Nat} {command : Instr} (h : (cmdOpc w).toNat = n)
    (opc : BitVec.ofNat 8 n ∈ formatNOpcodes) (encodes : encode command = commandWord (BitVec.ofNat 8 n) 0#8 0#16)
    (wellFormed : command.wellFormed = true) : Decoded w (formatN w command) := by
  rw [← cmdOpc_of_toNat h] at opc encodes
  exact .plain command opc encodes wellFormed

/-- Every word's answer is one of these (R51). -/
theorem decode_decoded (w : Word) : Decoded w (decode w) := by
  unfold decode
  split
  case h_1 h | h_4 h | h_5 h | h_6 h | h_7 h | h_8 h | h_9 h | h_10 h | h_11 h | h_13 h | h_14 h | h_18 h | h_19 h | h_20 h =>
    exact .immediate_of_toNat h (by decide) (fun _ => rfl) (fun _ => rfl)
  case h_2 h => exact .parameter (cmdOpc_of_toNat h)
  case h_3 h | h_12 h | h_15 h | h_16 h | h_17 h => exact .plain_of_toNat h (by decide) rfl rfl
  case h_21 =>
    refine .unknown fun hmem => ?_
    have hnumber := List.mem_map_of_mem (f := BitVec.toNat) hmem
    simp_all [opcodes]

/-! ### Decoding an encoding, encoding a decoding -/

theorem formatI_commandWord (opc : BitVec 8) (imm : Half) (command : Half → Instr) :
    formatI (commandWord opc 0#8 imm) command = .ok (command imm) := by
  simp [formatI_ok_iff]

theorem formatP_commandWord (opc : BitVec 8) {k : BitVec 3} (hk : k.toNat ≤ 5) (imm : Half) (command : BitVec 3 → Half → Instr) :
    formatP (commandWord opc (0#5 ++ k) imm) command = .ok (command k imm) := by
  simp [formatP_ok_iff, hk]

theorem formatN_commandWord (opc : BitVec 8) (command : Instr) : formatN (commandWord opc 0#8 0#16) command = .ok command := by
  simp [formatN_ok_iff]

/-- The decoder takes the arm of the command's opcode, and the format reads back what `commandWord` put together. -/
theorem decode_encode {i : Instr} (h : i.wellFormed = true) : decode (encode i) = .ok i := by
  cases i with
  | ldrs imm | cvolt imm | cpct imm | ctemp imm | ccap imm | ccur imm | ctime imm | cvthb imm | etemp imm | vvth imm | evthb imm
  | unpk imm | unpks imm | dvth imm =>
    simp only [encode, decode, cmdOpc_commandWord]
    exact formatI_commandWord _ imm _
  | ldp k imm =>
    simp only [encode, decode, cmdOpc_commandWord]
    exact formatP_commandWord _ (of_decide_eq_true h) imm _
  | clre | pcfg | evth | pack | packs =>
    simp only [encode, decode, cmdOpc_commandWord]
    exact formatN_commandWord _ _

/-- The word a format accepts is put together again from the fields it read, the others being zero (R45, R49). -/
theorem encode_of_decode {w : Word} {i : Instr} (h : decode w = .ok i) : encode i = w ∧ i.wellFormed = true := by
  have hdecoded := decode_decoded w
  rw [h] at hdecoded
  generalize hanswer : Except.ok i = answer at hdecoded
  cases hdecoded with
  | immediate command _ encodes wellFormed =>
    obtain ⟨hsel, rfl⟩ := (formatI_ok_iff w command i).mp hanswer.symm
    exact ⟨by rw [encodes, ← hsel, commandWord_eta], wellFormed _⟩
  | parameter opc =>
    obtain ⟨⟨hreserved, hk⟩, rfl⟩ := (formatP_ok_iff w .ldp i).mp hanswer.symm
    exact ⟨by rw [encode, ← opc, ← hreserved, ← cmdSel_eq_append, commandWord_eta], decide_eq_true hk⟩
  | plain command _ encodes wellFormed =>
    obtain ⟨⟨hsel, himm⟩, rfl⟩ := (formatN_ok_iff w command i).mp hanswer.symm
    exact ⟨by rw [encodes, ← hsel, ← himm, commandWord_eta], wellFormed⟩
  | unknown => exact nomatch hanswer

/-! ### The opcode map against the decoder (R50, R51) -/

/-- What the three formats ask of the fields of a legal word (R46 to R48). -/
def LegalFields (w : Word) : Prop :=
  (cmdOpc w ∈ formatIOpcodes ∧ cmdSel w = 0#8) ∨
  (cmdOpc w = 0x02#8 ∧ cmdReservedP w = 0#5 ∧ (cmdParam w).toNat ≤ 5) ∨
  (cmdOpc w ∈ formatNOpcodes ∧ cmdSel w = 0#8 ∧ cmdImm w = 0#16)

theorem not_mem_formatN_of_mem_formatI : ∀ opc ∈ formatIOpcodes, opc ≠ 0x02#8 ∧ opc ∉ formatNOpcodes := by decide

theorem not_mem_formatI_of_mem_formatN : ∀ opc ∈ formatNOpcodes, opc ≠ 0x02#8 ∧ opc ∉ formatIOpcodes := by decide

/-- Every opcode belongs to one of the three formats. -/
theorem mem_opcodes_iff (opc : BitVec 8) :
    opc ∈ opcodes ↔ opc ∈ formatIOpcodes ∨ opc = 0x02#8 ∨ opc ∈ formatNOpcodes := by
  simp only [opcodes, formatIOpcodes, formatNOpcodes, List.mem_cons, List.not_mem_nil, or_false]
  tauto

/-- The decoder accepts exactly the words with legal fields. -/
theorem exists_decode_ok_iff (w : Word) : (∃ i, decode w = .ok i) ↔ LegalFields w := by
  have hdecoded := decode_decoded w
  generalize decode w = answer at hdecoded ⊢
  cases hdecoded with
  | immediate command opc =>
    obtain ⟨hP, hN⟩ := not_mem_formatN_of_mem_formatI _ opc
    simp [formatI_ok_iff, LegalFields, opc, hP, hN]
  | parameter opc => simp [formatP_ok_iff, LegalFields, opc, formatIOpcodes, formatNOpcodes]
  | plain command opc =>
    obtain ⟨hP, hI⟩ := not_mem_formatI_of_mem_formatN _ opc
    simp [formatN_ok_iff, LegalFields, opc, hP, hI]
  | unknown opc =>
    rw [mem_opcodes_iff] at opc
    simp only [LegalFields]
    tauto

theorem cmdOpc_and (v w : Word) : cmdOpc (v &&& w) = cmdOpc v &&& cmdOpc w := BitVec.extractLsb'_and ..
theorem cmdSel_and (v w : Word) : cmdSel (v &&& w) = cmdSel v &&& cmdSel w := BitVec.extractLsb'_and ..
theorem cmdReservedP_and (v w : Word) : cmdReservedP (v &&& w) = cmdReservedP v &&& cmdReservedP w := BitVec.extractLsb'_and ..

/-- The mask of every row keeps the opcode, so a word that matches a row has the row's opcode. -/
theorem cmdOpc_of_matches {r : OpcodeRow} (hr : r ∈ opcodeMap) {w : Word} (h : w &&& r.mask = r.pattern) :
    cmdOpc w = cmdOpc r.pattern := by
  have hmask : ∀ r ∈ opcodeMap, cmdOpc r.mask = BitVec.allOnes 8 := by decide
  rw [← h, cmdOpc_and, hmask r hr, BitVec.and_allOnes]

/-- The rows by format: mask, and what the pattern holds in the bits the mask keeps. -/
theorem opcodeMap_formats : ∀ r ∈ opcodeMap,
    (r.mask = 0xFFFF0000#32 ∧ cmdOpc r.pattern ∈ formatIOpcodes ∧ cmdSel r.pattern = 0#8) ∨
    (r.mnemonic = "LDP" ∧ r.mask = 0xFFF80000#32 ∧ r.pattern = 0x02000000#32) ∨
    (r.mask = 0xFFFFFFFF#32 ∧ cmdOpc r.pattern ∈ formatNOpcodes ∧ cmdSel r.pattern = 0#8 ∧ cmdImm r.pattern = 0#16) := by
  decide

/-- A word that a row accepts has legal fields. -/
theorem legalFields_of_accepts {r : OpcodeRow} (hr : r ∈ opcodeMap) {w : Word} (h : r.accepts w = true) : LegalFields w := by
  obtain ⟨hmatch, hparam⟩ := (Bool.and_eq_true _ _).mp h
  have hmatch : w &&& r.mask = r.pattern := eq_of_beq hmatch
  have hopc : cmdOpc w = cmdOpc r.pattern := cmdOpc_of_matches hr hmatch
  rcases opcodeMap_formats r hr with ⟨hmask, hI, hsel⟩ | ⟨hldp, hmask, hpattern⟩ | ⟨hmask, hN, hsel, himm⟩
  · refine .inl ⟨hopc ▸ hI, ?_⟩
    rw [← hmatch, hmask, cmdSel_and] at hsel
    exact (BitVec.and_allOnes (x := cmdSel w)).symm.trans hsel
  · refine .inr (.inl ⟨by rw [hopc, hpattern]; rfl, ?_, by simpa [hldp] using hparam⟩)
    have hreserved : cmdReservedP (w &&& r.mask) = 0#5 := by rw [hmatch, hpattern]; rfl
    rw [hmask, cmdReservedP_and] at hreserved
    exact (BitVec.and_allOnes (x := cmdReservedP w)).symm.trans hreserved
  · have hw : w = r.pattern := by
      rw [hmask] at hmatch
      exact (BitVec.and_allOnes (x := w)).symm.trans hmatch
    exact .inr (.inr (hw ▸ ⟨hN, hsel, himm⟩))

/-- The word of every well-formed command is accepted by its own row. -/
theorem encodesInOwnRow (i : Instr) : Laws.EncodesInOwnRow.Statement i := by
  cases i with
  | ldrs imm => exact Laws.EncodesInOwnRow.ldrs imm
  | ldp k imm => exact Laws.EncodesInOwnRow.ldp k imm
  | clre => exact Laws.EncodesInOwnRow.clre
  | cvolt imm => exact Laws.EncodesInOwnRow.cvolt imm
  | cpct imm => exact Laws.EncodesInOwnRow.cpct imm
  | ctemp imm => exact Laws.EncodesInOwnRow.ctemp imm
  | ccap imm => exact Laws.EncodesInOwnRow.ccap imm
  | ccur imm => exact Laws.EncodesInOwnRow.ccur imm
  | ctime imm => exact Laws.EncodesInOwnRow.ctime imm
  | cvthb imm => exact Laws.EncodesInOwnRow.cvthb imm
  | etemp imm => exact Laws.EncodesInOwnRow.etemp imm
  | pcfg => exact Laws.EncodesInOwnRow.pcfg
  | vvth imm => exact Laws.EncodesInOwnRow.vvth imm
  | evthb imm => exact Laws.EncodesInOwnRow.evthb imm
  | evth => exact Laws.EncodesInOwnRow.evth
  | pack => exact Laws.EncodesInOwnRow.pack
  | packs => exact Laws.EncodesInOwnRow.packs
  | unpk imm => exact Laws.EncodesInOwnRow.unpk imm
  | unpks imm => exact Laws.EncodesInOwnRow.unpks imm
  | dvth imm => exact Laws.EncodesInOwnRow.dvth imm

/-- R50: a row accepts exactly the words that decode. -/
theorem legalWord_iff_decode (w : Word) : legalWord w = true ↔ ∃ i, decode w = .ok i := by
  constructor
  · intro h
    obtain ⟨r, hr, haccepts⟩ := List.any_eq_true.mp h
    exact (exists_decode_ok_iff w).mpr (legalFields_of_accepts hr haccepts)
  · rintro ⟨i, h⟩
    obtain ⟨rfl, hwf⟩ := encode_of_decode h
    obtain ⟨r, hr, -, haccepts⟩ := encodesInOwnRow i hwf
    exact List.any_eq_true.mpr ⟨r, hr, haccepts⟩

/-- `cmd[23:0]` is `sel` and `imm` (R48). -/
theorem low24_eq_zero_iff (w : Word) : w.extractLsb' 0 24 = 0#24 ↔ cmdSel w = 0#8 ∧ cmdImm w = 0#16 := by
  simp only [BitVec.toNat_eq, cmdSel, cmdImm, BitVec.extractLsb'_toNat, BitVec.toNat_ofNat, Nat.shiftRight_eq_div_pow]
  omega

/-- The parameter numbers that LDP refuses (R47). -/
theorem param_gt_iff (k : BitVec 3) : ¬ k.toNat ≤ 5 ↔ k = 6#3 ∨ k = 7#3 := by
  revert k
  decide

/-- The four cases (a) to (d) of R50 are the words without legal fields. -/
theorem not_legalFields_iff (w : Word) :
    ¬ LegalFields w ↔
      cmdOpc w ∉ opcodes ∨ (cmdOpc w ∈ formatIOpcodes ∧ cmdSel w ≠ 0#8) ∨
      (cmdOpc w ∈ formatNOpcodes ∧ w.extractLsb' 0 24 ≠ 0#24) ∨
      (cmdOpc w = 0x02#8 ∧ (cmdReservedP w ≠ 0#5 ∨ cmdParam w = 6#3 ∨ cmdParam w = 7#3)) := by
  have hI := not_mem_formatN_of_mem_formatI (cmdOpc w)
  have hN := not_mem_formatI_of_mem_formatN (cmdOpc w)
  rw [LegalFields, mem_opcodes_iff, ← param_gt_iff]
  simp only [ne_eq, low24_eq_zero_iff]
  tauto

end Sys2Proof

namespace Sys2Proof.Machine

/-! ### Command words of a host's program, and the loads that begin a pseudo-instruction (R54, R55) -/

/-- An illegal word takes IllegalCommand with the word as payload (R50). -/
theorem runCommand_of_not_legalWord {w : Word} (h : legalWord w = false) (s : State) :
    runCommand w s = .next (raise .illegalCommand w s) := by
  cases hdecode : decode w with
  | ok i => exact absurd ((legalWord_iff_decode w).mpr ⟨i, hdecode⟩) (by simp [h])
  | error e => exact runCommand_of_error hdecode s

/-- The word of a well-formed command runs that command. -/
theorem runCommand_encode {i : Instr} (h : i.wellFormed = true) (s : State) : runCommand (encode i) s = exec i s :=
  runCommand_of_decode (decode_encode h) s

/-- Words first run to a state, then the rest from there. -/
theorem runCommands_append {ws : List Word} {s t : State} (h : runCommands ws s = .next t) (rest : List Word) :
    runCommands (ws ++ rest) s = runCommands rest t := by
  induction ws generalizing s with
  | nil => cases h; rfl
  | cons w ws ih =>
    obtain ⟨u, hu, -⟩ := runCommand_next w s
    rw [runCommands_cons hu] at h
    rw [List.cons_append, runCommands_cons hu, ih h]

/-- A pseudo-instruction is its last command, from the state that the commands before it leave. -/
theorem runCommands_last {first : List Instr} {last : Instr} {s t : State} (h : runCommands (first.map encode) s = .next t)
    (hlast : last.wellFormed = true) : runCommands ((first ++ [last]).map encode) s = exec last t := by
  rw [List.map_append, runCommands_append h]
  exact (runCommands_singleton _ t).trans (runCommand_encode hlast t)

/-- What LDP leaves (R91). -/
def State.load (s : State) (k : Fin 6) (v : Half) : State := doneHousekeeping (s.withParam k v)

@[simp] theorem load_p (s : State) (k : Fin 6) (v : Half) : (s.load k v).p = s.p.set k.val v k.isLt := rfl
@[simp] theorem load_rsense (s : State) (k : Fin 6) (v : Half) : (s.load k v).rsense = s.rsense := rfl
@[simp] theorem load_calv (s : State) (k : Fin 6) (v : Half) : statCalv (s.load k v).stat = statCalv s.stat := by simp [State.load]
@[simp] theorem load_se (s : State) (k : Fin 6) (v : Half) : statSe (s.load k v).stat = statSe s.stat := by simp [State.load]
@[simp] theorem load_param_same (s : State) (k : Fin 6) (v : Half) : (s.load k v).param k = v := by simp [State.load]
@[simp] theorem load_param_other (s : State) {k j : Fin 6} (v : Half) (h : j ≠ k) : (s.load k v).param j = s.param j := by
  simp [State.load, h]

/-- The LDP that loads one parameter register, the register and its value given. -/
def ldpOf (l : Fin 6 × Half) : Instr := .ldp (BitVec.ofNat 3 l.1) l.2

theorem toNat_paramNumber (k : Fin 6) : (BitVec.ofNat 3 k).toNat = k :=
  (BitVec.toNat_ofNat ..).trans (Nat.mod_eq_of_lt (by omega))

theorem wellFormed_ldpOf (l : Fin 6 × Half) : (ldpOf l).wellFormed = true :=
  decide_eq_true (by rw [toNat_paramNumber]; omega)

/-- LDP to a parameter register that exists loads it (R91). -/
theorem exec_ldpOf (l : Fin 6 × Half) (s : State) : exec (ldpOf l) s = .next (s.load l.1 l.2) := by
  have hk : paramIndex (BitVec.ofNat 3 l.1) = some l.1 := by
    rw [paramIndex_of_le (by rw [toNat_paramNumber]; omega)]
    exact congrArg some (Fin.ext (toNat_paramNumber l.1))
  simp only [exec, ldpOf, execLdp, hk, State.load]

/-- What a list of loads leaves. -/
def State.loadAll (s : State) (ls : List (Fin 6 × Half)) : State := ls.foldl (fun t l => t.load l.1 l.2) s

/-- Loads cannot fail. -/
theorem runCommands_loads (ls : List (Fin 6 × Half)) (s : State) :
    runCommands ((ls.map ldpOf).map encode) s = .next (s.loadAll ls) := by
  induction ls generalizing s with
  | nil => rfl
  | cons l ls ih =>
    have hload := (runCommand_encode (wellFormed_ldpOf l) s).trans (exec_ldpOf l s)
    rw [List.map_cons, List.map_cons, runCommands_cons hload, ih]
    rfl

/-- One housekeeping success after another leaves what one does (R100). -/
theorem housekeepingAfter_trans {s t u : State} (h : HousekeepingAfter s t) (h' : HousekeepingAfter t u) :
    HousekeepingAfter s u :=
  { err := h'.err, errval := h'.errval, res := h'.res.trans h.res, aux := h'.aux.trans h.aux, rv := h'.rv.trans h.rv
    reserved := h'.reserved.trans h.reserved
    port := ⟨h'.port.rspValid.trans h.port.rspValid, h'.port.inFlight.trans h.port.inFlight,
      h'.port.schedule.trans h.port.schedule⟩ }

/-- Loads, at least one, leave what a housekeeping success leaves (R100). -/
theorem housekeepingAfter_loadAll (s : State) (l : Fin 6 × Half) (ls : List (Fin 6 × Half)) :
    HousekeepingAfter s (s.loadAll (l :: ls)) := by
  induction ls generalizing s l with
  | nil => exact housekeepingAfter_load s l.1 l.2
  | cons l' ls ih => exact housekeepingAfter_trans (housekeepingAfter_load s l.1 l.2) (ih _ l')

/-- Six loads leave nothing of the old parameters. -/
theorem loadAll_six_p (s : State) (v0 v1 v2 v3 v4 v5 : Half) :
    (s.loadAll [(0, v0), (1, v1), (2, v2), (3, v3), (4, v4), (5, v5)]).p = #v[v0, v1, v2, v3, v4, v5] := by
  apply Vector.ext
  intro i hi
  simp only [State.loadAll, List.foldl, load_p]
  interval_cases i <;> simp

/-! ### The statements -/

/-- Settles O1, by the command: the decoder takes the arm of its opcode, and that arm's format reads the fields back
(`decode_encode`). -/
theorem decodeOfEncodeIsIdentity : Obligations.DecodeOfEncodeIsIdentity :=
  fun _ => decode_encode

/-- Settles O2, by the four things the decoder can answer (`Decoded`): a format that accepts fixes every bit of the word. -/
theorem encodeOfDecodeIsIdentity : Obligations.EncodeOfDecodeIsIdentity :=
  fun _ _ => encode_of_decode

/-- Settles O3: decoder and opcode map accept the same words, those with `LegalFields`, and (a) to (d) are the other words. -/
theorem legalWordsAreTheOpcodeMap : Obligations.LegalWordsAreTheOpcodeMap := by
  refine fun w => ⟨legalWord_iff_decode w, ?_, fun h s => ?_, by decide, by decide⟩
  · rw [← Bool.not_eq_true, legalWord_iff_decode, exists_decode_ok_iff]
    exact not_legalFields_iff w
  · exact ⟨_, runCommand_of_not_legalWord h s, failureAfter_raise _ _ s⟩

/-- Settles O4: a word that matches a row has the row's opcode, and no two rows have the same. -/
theorem noWordMatchesTwoRows : Obligations.NoWordMatchesTwoRows := by
  intro w
  have hopcodes : opcodeMap.Pairwise fun r r' => cmdOpc r.pattern ≠ cmdOpc r'.pattern := by decide
  exact hopcodes.imp_of_mem fun hr hr' hne h h' => hne ((cmdOpc_of_matches hr h).symm.trans (cmdOpc_of_matches hr' h'))

/-- Settles O7, by induction on the list of loads (`runCommands_loads`); PCFG then runs from the state they leave. -/
theorem setcfgIsPcfgOnItsOperands : Obligations.SetcfgIsPcfgOnItsOperands := by
  intro c t e2 e3 e4 e5 s
  have hloads := runCommands_loads [(0, c), (1, t), (2, e2), (3, e3), (4, e4), (5, e5)] s
  exact ⟨_, hloads, loadAll_six_p s c t e2 e3 e4 e5, rfl, by simp [State.loadAll], by simp [State.loadAll],
    housekeepingAfter_loadAll s _ _, runCommands_last hloads rfl⟩

/-- Settles O8: the two loads are those of `runCommands_loads`, and one state serves all three last commands. -/
theorem pairPseudosLoadMinimumFirst : Obligations.PairPseudosLoadMinimumFirst := by
  intro lo hi s
  have hloads := runCommands_loads [(0, lo), (1, hi)] s
  refine ⟨_, hloads, by simp [State.loadAll], by simp [State.loadAll], fun k hk => ?_, housekeepingAfter_loadAll s _ _,
    runCommands_last hloads rfl, runCommands_last hloads rfl, runCommands_last hloads rfl⟩
  exact (load_param_other (k := 1) _ hi (by omega)).trans (load_param_other (k := 0) s lo (by omega))

/-- Settles O5: each word is the encoding of the command named. -/
theorem exampleWordsDecode : Obligations.ExampleWordsDecode :=
  ⟨decode_encode (i := .cvolt 0xA000#16) rfl, decode_encode (i := .ldp 1#3 4000#16) rfl, decode_encode (i := .evth) rfl,
    decode_encode (i := .vvth 0xFFEC#16) rfl, decode_encode (i := .pcfg) rfl, decode_encode (i := .ldrs 10#16) rfl⟩

/-- Settles O6, by assembling the four lines. -/
theorem exampleLinesAssemble : Obligations.ExampleLinesAssemble := by
  unfold Obligations.ExampleLinesAssemble
  decide

end Sys2Proof.Machine

/-! PROOFS of the statements of spec/40_conversion.md: the division law (R61), the ranges (R62) and the conversion commands (R63 to
R70). -/

namespace Sys2Proof.Machine

/-! ### The division law (R61) -/

/-- Quotient and remainder make up the dividend. -/
theorem tdiv_mul_add_trem (n d : Int) : tdiv n d * d + trem n d = n := by
  rw [trem_eq_tmod]
  exact Int.tdiv_mul_add_tmod n d

theorem abs_trem_lt (n : Int) {d : Int} (hd : 0 < d) : |trem n d| < d := by
  rw [trem_eq_tmod]
  exact abs_lt.mpr ⟨Int.lt_tmod_of_pos n hd, Int.tmod_lt_of_pos n hd⟩

/-- The conversion is odd-symmetric: the quotient. -/
theorem tdiv_neg_left (n d : Int) : tdiv (-n) d = -tdiv n d := Int.neg_tdiv n d

/-- The conversion is odd-symmetric: the remainder. -/
theorem trem_neg_left (n d : Int) : trem (-n) d = -trem n d := by
  rw [trem_eq_tmod, trem_eq_tmod]
  exact Int.neg_tmod n d

theorem tdiv_nonneg {n d : Int} (hn : 0 ≤ n) (hd : 0 ≤ d) : 0 ≤ tdiv n d := Int.tdiv_nonneg hn hd

theorem trem_nonneg {n : Int} (hn : 0 ≤ n) (d : Int) : 0 ≤ trem n d := by
  rw [trem_eq_tmod]
  exact Int.tmod_nonneg d hn

theorem tdiv_nonpos {n d : Int} (hn : n ≤ 0) (hd : 0 ≤ d) : tdiv n d ≤ 0 := by
  have h : 0 ≤ tdiv (-n) d := tdiv_nonneg (by omega) hd
  rw [tdiv_neg_left] at h
  omega

theorem trem_nonpos {n : Int} (hn : n ≤ 0) (d : Int) : trem n d ≤ 0 := by
  have h : 0 ≤ trem (-n) d := trem_nonneg (by omega) d
  rw [trem_neg_left] at h
  omega

/-- Truncation toward zero by the floor division of a dividend that is not negative, the sign of the dividend put back. -/
theorem tdiv_eq_ite (n d : Int) : tdiv n d = if 0 ≤ n then n / d else -(-n / d) := by
  split
  · exact Int.tdiv_eq_ediv_of_nonneg ‹_›
  · have h : tdiv (-n) d = -n / d := Int.tdiv_eq_ediv_of_nonneg (by omega)
    rw [← h, tdiv_neg_left, neg_neg]

/-- A remainder smaller than the divisor and zero or of the sign of the dividend leaves no choice. -/
theorem tdiv_trem_unique {n d q r : Int} (hd : 0 < d) (hn : n = q * d + r) (hr : |r| < d)
    (hsign : r = 0 ∨ (0 < r ∧ 0 < n) ∨ (r < 0 ∧ n < 0)) : q = tdiv n d ∧ r = trem n d := by
  obtain ⟨hlow, hhigh⟩ := abs_lt.mp hr
  have hsum : r + d * q = n := by rw [hn]; ring
  have habs : (d.natAbs : Int) = d := Int.natAbs_of_nonneg hd.le
  have hquotrem : n.tdiv d = q ∧ n.tmod d = r := by
    rcases le_or_gt 0 n with hpos | hneg
    · exact (Int.tdiv_tmod_unique hpos hd.ne').mpr ⟨hsum, by omega, by omega⟩
    · exact (Int.tdiv_tmod_unique' hneg.le hd.ne').mpr ⟨hsum, by omega, by omega⟩
  obtain ⟨hquot, hrem⟩ := hquotrem
  exact ⟨hquot.symm, hrem.symm.trans (trem_eq_tmod n d).symm⟩

/-! ### What the registers hold signed (R62) -/

/-- A raw value or a byte, times a constant of at most 15 bits, is small enough for a signed word. -/
theorem abs_uval_mul_lt {n : Nat} (hn : n ≤ 16) (v : BitVec n) {k : Int} (hk0 : 0 ≤ k) (hk : k ≤ 2 ^ 15) :
    |uval v * k| < 2 ^ 31 := by
  rw [abs_of_nonneg (mul_nonneg (uval_nonneg v) hk0)]
  exact uval_mul_lt hn v hk0 hk

/-- Such a product reads back signed as it is. -/
theorem sval_enc32_mul {n : Nat} (hn : n ≤ 16) (v : BitVec n) {k : Int} (hk0 : 0 ≤ k) (hk : k ≤ 2 ^ 15) :
    sval (enc32 (uval v * k)) = uval v * k := by
  obtain ⟨hlow, hhigh⟩ := abs_lt.mp (abs_uval_mul_lt hn v hk0 hk)
  exact sval_enc32 hlow.le hhigh

/-! ### The two commands that divide (R66, R67) -/

theorem uval_pos {n : Nat} {v : BitVec n} (h : v ≠ 0#n) : 0 < uval v :=
  lt_of_le_of_ne (uval_nonneg v) (uval_ne_zero h).symm

theorem divideByRsense_of_calibrated (n : Int) (imm : Half) {s : State} (h : statCalv s.stat = true) :
    divideByRsense n imm s = doneResult (enc32 (tdiv n (uval s.rsense))) (enc32 (trem n (uval s.rsense))) s := by
  rw [divideByRsense, h, unlessRaise_true]

/-- Without a calibration the division fails, with the raw value as payload (spec/60_exceptions.md R106). -/
theorem failureAfter_divideByRsense (n : Int) (imm : Half) {s : State} (h : statCalv s.stat = false) :
    FailureAfter .notCalibrated (imm.setWidth 32) s (divideByRsense n imm s) := by
  rw [divideByRsense, h, unlessRaise_false]
  exact failureAfter_raise _ _ s

/-- CCAP's quotient and remainder are held exactly, read unsigned. -/
theorem uval_enc32_ccap (imm rsense : Half) :
    uval (enc32 (tdiv (uval imm * Config.kCap) (uval rsense))) = tdiv (uval imm * Config.kCap) (uval rsense) ∧
      uval (enc32 (trem (uval imm * Config.kCap) (uval rsense))) = trem (uval imm * Config.kCap) (uval rsense) := by
  obtain ⟨h0, h⟩ := uval_mul_range le_rfl imm (show 0 ≤ Config.kCap by decide) (by decide)
  exact uval_enc32_division h0 h (uval_nonneg rsense)

/-- CCUR's quotient in the words of R67: the sign is the raw value's. -/
theorem tdiv_mul_kCur (v d : Int) :
    tdiv (v * Config.kCur) d = if 0 ≤ v then v * Config.kCur / d else -(-(v * Config.kCur) / d) := by
  have hsign : 0 ≤ v * Config.kCur ↔ 0 ≤ v := mul_nonneg_iff_of_pos_right (by decide)
  rw [tdiv_eq_ite]
  simp only [hsign]

/-! ### One threshold byte (R69) -/

/-- The upper byte of an operand is zero exactly if the operand is a byte. -/
theorem hiByte_eq_zero_iff (v : Half) : hiByte v = 0#8 ↔ uval v ≤ 255 := by
  simp only [BitVec.toNat_eq, hiByte, uval, BitVec.extractLsb'_toNat, BitVec.toNat_ofNat, Nat.shiftRight_eq_div_pow]
  omega

/-- The byte of an operand that is one. -/
theorem uval_loByte_of_le {v : Half} (h : uval v ≤ 255) : uval (loByte v) = uval v := by
  simp only [uval, loByte, BitVec.extractLsb'_toNat, Nat.shiftRight_zero] at h ⊢
  omega

/-- The millivolts of a byte are a valid threshold (R69; spec/42_threshold.md R75). -/
theorem isThreshold_byteMv (b : Byte) : IsThreshold (byteMv b) := by
  have h0 : 0 ≤ uval b := uval_nonneg b
  have h : uval b < 2 ^ 8 := uval_lt b
  have hmv : byteMv b = uval b * 20 := rfl
  rw [hmv]
  exact ⟨by omega, by omega, by omega⟩

/-- CVTHB of a byte succeeds. -/
theorem exec_cvthb_of_le {imm : Half} (h : uval imm ≤ 255) (s : State) :
    exec (.cvthb imm) s = .next (doneResult (enc32 (byteMv (loByte imm))) 0#32 s) := by
  have hok : (hiByte imm == 0#8) = true := beq_iff_eq.mpr ((hiByte_eq_zero_iff imm).mpr h)
  simp only [exec, execCvthb, hok, unlessRaise_true]

/-- CVTHB of anything else reports the operand (spec/60_exceptions.md R104). -/
theorem exec_cvthb_of_gt {imm : Half} (h : 255 < uval imm) (s : State) :
    exec (.cvthb imm) s = .next (raise .invalidConfigurationValue (zext32 imm) s) := by
  have hbad : (hiByte imm == 0#8) = false :=
    beq_eq_false_iff_ne.mpr fun hzero => absurd ((hiByte_eq_zero_iff imm).mp hzero) (by omega)
  simp only [exec, execCvthb, hbad, unlessRaise_false]

/-! ### The 16 bits of a zero-extended value (R70) -/

theorem zext32_low (v : Half) : (zext32 v).extractLsb' 0 16 = v := by
  rw [zext32, BitVec.extractLsb'_setWidth_of_le (by decide)]
  exact BitVec.extractLsb'_eq_self

theorem zext32_high (v : Half) : (zext32 v).extractLsb' 16 16 = 0#16 := by
  apply BitVec.eq_of_getLsbD_eq
  intro i _
  simp [zext32]

/-! ### The statements -/

/-- Settles O34: the quotient and remainder have the properties of R61, and `tdiv_trem_unique` leaves no others. -/
theorem divisionLaw : Obligations.DivisionLaw := by
  intro n d hd
  have hd0 : 0 ≤ d := by omega
  refine ⟨⟨(tdiv_mul_add_trem n d).symm, abs_trem_lt n (by omega), fun hn => ?_, fun hn => ?_⟩,
    fun q r => tdiv_trem_unique (by omega), tdiv_neg_left n d, trem_neg_left n d⟩
  · exact ⟨trem_nonneg hn d, tdiv_nonneg hn hd0⟩
  · exact ⟨trem_nonpos hn d, tdiv_nonpos hn hd0⟩

/-- Settles O35: each product is below 2^31 in size, and a quotient or remainder is no greater than the product divided. -/
theorem noConversionOverflows : Obligations.NoConversionOverflows := by
  intro imm rsense b
  refine ⟨sval_enc32_mul le_rfl imm (by decide) (by decide), sval_enc32_mul le_rfl imm (by decide) (by decide),
    sval_enc32_mul (by decide) b (by decide) (by decide), fun _ => ?_⟩
  obtain ⟨hcapQuot, hcapRem⟩ := sval_enc32_division
    (abs_uval_mul_lt le_rfl imm (show 0 ≤ Config.kCap by decide) (by decide)) (uval rsense)
  obtain ⟨hcurQuot, hcurRem⟩ := sval_enc32_division (abs_mul_kCur_lt imm) (uval rsense)
  exact ⟨hcapQuot, hcapRem, hcurQuot, hcurRem⟩

/-- Settles O26: the product fits its register, and the volts are those of `physicalValue_cvolt`, one count being 0.125 microvolt. -/
theorem cvoltScalesBy625 : Obligations.CvoltScalesBy625 := by
  intro imm s
  have hunit : (125 / 1000000000 : Rat) = 1 / 8000000 := by norm_num
  refine ⟨decode_encode (i := .cvolt imm) rfl, _, rfl, resultAfter_doneResult _ _ s,
    uval_enc32_mul le_rfl imm (by decide) (by decide), ?_⟩
  rw [hunit]
  exact Option.some.inj (physicalValue_cvolt imm s)

/-- Settles O31: the product fits its register, and the seconds are those of `physicalValue_ctime`. -/
theorem ctimeScalesBy45 : Obligations.CtimeScalesBy45 :=
  fun imm s => ⟨decode_encode (i := .ctime imm) rfl, _, rfl, resultAfter_doneResult _ _ s,
    uval_enc32_mul le_rfl imm (by decide) (by decide), Option.some.inj (physicalValue_ctime imm s)⟩

/-- Settles O27: zero extension keeps the unsigned value. -/
theorem cpctIsUnclippedIdentity : Obligations.CpctIsUnclippedIdentity :=
  fun imm s => ⟨decode_encode (i := .cpct imm) rfl, _, rfl, resultAfter_doneResult _ _ s, uval_zext32 imm,
    Option.some.inj (physicalValue_cpct imm s)⟩

/-- Settles O28: sign extension keeps the signed value. -/
theorem ctempIsSigned : Obligations.CtempIsSigned :=
  fun imm s => ⟨decode_encode (i := .ctemp imm) rfl, _, rfl, resultAfter_doneResult _ _ s, sval_sext32 imm,
    Option.some.inj (physicalValue_ctemp imm s)⟩

/-- Settles O29: the division law read unsigned, for quotient and remainder fit their registers (`uval_enc32_ccap`). -/
theorem ccapDividesByRsense : Obligations.CcapDividesByRsense := by
  intro imm s
  refine ⟨decode_encode (i := .ccap imm) rfl, fun hcalv => ⟨_, rfl, failureAfter_divideByRsense _ imm hcalv⟩,
    fun hcalv hrsense => ⟨_, congrArg Host.Outcome.next (divideByRsense_of_calibrated _ imm hcalv),
      resultAfter_doneResult _ _ s, ?_⟩⟩
  have hd : 0 < uval s.rsense := uval_pos hrsense
  have hn : 0 ≤ uval imm * Config.kCap := mul_nonneg (uval_nonneg imm) (by decide)
  have hvalue := (div_eq_mul_one_div _ _).trans (Option.some.inj (physicalValue_ccap imm hd.ne'))
  obtain ⟨hquot, hrem⟩ := uval_enc32_ccap imm s.rsense
  refine ⟨hquot.trans (Int.tdiv_eq_ediv_of_nonneg hn), ?_, ?_, hvalue⟩
  · rw [doneResult_res, doneResult_aux, hquot, hrem]
    exact tdiv_mul_add_trem _ _
  · rw [doneResult_aux, hrem]
    exact (le_abs_self _).trans_lt (abs_trem_lt _ hd)

/-- Settles O30: the division law read signed, for quotient and remainder fit their registers (`sval_enc32_division`). -/
theorem ccurDividesByRsenseTowardZero : Obligations.CcurDividesByRsenseTowardZero := by
  intro imm s
  refine ⟨decode_encode (i := .ccur imm) rfl, fun hcalv => ⟨_, rfl, failureAfter_divideByRsense _ imm hcalv⟩,
    fun hcalv hrsense => ⟨_, congrArg Host.Outcome.next (divideByRsense_of_calibrated _ imm hcalv),
      resultAfter_doneResult _ _ s, ?_⟩⟩
  have hd : 0 < uval s.rsense := uval_pos hrsense
  have hk : 0 ≤ Config.kCur := by decide
  have hvalue := (div_eq_mul_one_div _ _).trans (Option.some.inj (physicalValue_ccur imm hd.ne'))
  obtain ⟨hquot, hrem⟩ := sval_enc32_division (abs_mul_kCur_lt imm) (uval s.rsense)
  refine ⟨hquot.trans (tdiv_mul_kCur _ _), ?_, ?_, fun h => ?_, fun h => ?_, hvalue⟩
  · rw [doneResult_res, doneResult_aux, hquot, hrem]
    exact tdiv_mul_add_trem _ _
  · rw [doneResult_aux, hrem]
    exact abs_trem_lt _ hd
  · rw [doneResult_aux, hrem]
    exact trem_nonneg (mul_nonneg h hk) _
  · rw [doneResult_aux, hrem]
    exact trem_nonpos (mul_nonpos_of_nonpos_of_nonneg h hk) _

/-- Settles O32: the upper byte is zero exactly up to 255 (`hiByte_eq_zero_iff`), and then the lower byte is the operand. -/
theorem cvthbRefusesMoreThanAByte : Obligations.CvthbRefusesMoreThanAByte := by
  refine fun imm s => ⟨decode_encode (i := .cvthb imm) rfl, ?_⟩
  rcases le_or_gt (uval imm) 255 with hbyte | hmore
  · refine ⟨_, exec_cvthb_of_le hbyte s, fun _ => ⟨resultAfter_doneResult _ _ s, ?_⟩, fun h => absurd h (by omega)⟩
    have hlo : uval (loByte imm) = uval imm := uval_loByte_of_le hbyte
    have hexact : uval (enc32 (byteMv (loByte imm))) = byteMv (loByte imm) := uval_enc32_byteMv _
    have hvolts := enc32_byteMv_times_unit (loByte imm)
    rw [thresholdFormula, hlo] at hvolts
    refine ⟨?_, ?_, hvolts⟩
    · rw [doneResult_res, hexact, byteMv, hlo]
      rfl
    · rw [doneResult_res, hexact]
      exact isThreshold_byteMv _
  · exact ⟨_, exec_cvthb_of_gt hmore s, fun h => absurd h (by omega), fun _ => failureAfter_raise _ _ s⟩

/-- Settles O33: the low half of ETEMP's result is the operand itself, so CTEMP is applied to that. -/
theorem etempThenCtempIsIdentity : Obligations.EtempThenCtempIsIdentity := by
  intro imm s
  refine ⟨decode_encode (i := .etemp imm) rfl, _, doneResult (sext32 imm) 0#32 (doneResult (zext32 imm) 0#32 s), rfl,
    resultAfter_doneResult _ _ s, zext32_low imm, zext32_high imm, ?_, rfl, sval_sext32 imm⟩
  rw [doneResult_res, zext32_low]
  rfl

end Sys2Proof.Machine

/-! PROOFS of the statements of spec/41_config_encode.md: what PCFG checks and answers (R71) and what its code holds (R73). -/

namespace Sys2Proof.Machine

/-! ### Words made of fields: values OR-ed together, each inside a mask of its own (R72) -/

section Fields

variable {n : Nat}

/-- The OR of a list of words. -/
def orAll (vs : List (BitVec n)) : BitVec n := vs.foldr (· ||| ·) 0#n

@[simp] theorem orAll_nil : orAll ([] : List (BitVec n)) = 0#n := rfl
@[simp] theorem orAll_cons (v : BitVec n) (vs : List (BitVec n)) : orAll (v :: vs) = v ||| orAll vs := rfl

/-- Fields, each a value and the mask it is for: every value is inside its mask, and no two masks have a bit in common. -/
structure FieldsLaidOut (fs : List (BitVec n × BitVec n)) : Prop where
  inside : ∀ f ∈ fs, f.1 &&& ~~~f.2 = 0#n
  apart : fs.Pairwise fun f g => f.2 &&& g.2 = 0#n

theorem fieldsLaidOut_tail {f : BitVec n × BitVec n} {fs : List (BitVec n × BitVec n)} (h : FieldsLaidOut (f :: fs)) :
    FieldsLaidOut fs :=
  ⟨List.forall_mem_of_forall_mem_cons h.inside, h.apart.of_cons⟩

/-- Masking changes nothing of a value inside the mask. -/
theorem and_eq_self_of_inside {v m : BitVec n} (h : v &&& ~~~m = 0#n) : v &&& m = v := by
  calc v &&& m = v &&& m ||| v &&& ~~~m := by rw [h, BitVec.or_zero]
    _ = v := by rw [← BitVec.and_or_distrib_left, BitVec.or_not_self, BitVec.and_allOnes]

/-- What misses the mask misses every value inside it. -/
theorem and_eq_zero_of_inside {v m x : BitVec n} (h : v &&& ~~~m = 0#n) (hx : m &&& x = 0#n) : v &&& x = 0#n := by
  rw [← and_eq_self_of_inside h, BitVec.and_assoc, hx, BitVec.and_zero]

/-- What misses every word misses their OR. -/
theorem orAll_and_eq_zero {x : BitVec n} {vs : List (BitVec n)} (h : ∀ v ∈ vs, v &&& x = 0#n) : orAll vs &&& x = 0#n := by
  induction vs with
  | nil => simp
  | cons v vs ih =>
    obtain ⟨hv, hvs⟩ := List.forall_mem_cons.mp h
    rw [orAll_cons, BitVec.and_or_distrib_right, hv, ih hvs, BitVec.or_zero]

/-- A word is inside an OR that it is part of. -/
theorem inside_orAll_of_mem {v : BitVec n} {vs : List (BitVec n)} (h : v ∈ vs) : v &&& ~~~orAll vs = 0#n := by
  induction h with
  | head vs => simp [BitVec.not_or, ← BitVec.and_assoc]
  | tail w _ ih => rw [orAll_cons, BitVec.not_or, BitVec.and_comm (~~~w), ← BitVec.and_assoc, ih, BitVec.zero_and]

/-- The first field has no bit in common with the rest. -/
theorem head_and_orAll_tail {f : BitVec n × BitVec n} {fs : List (BitVec n × BitVec n)} (h : FieldsLaidOut (f :: fs)) :
    orAll (fs.map Prod.fst) &&& f.2 = 0#n := by
  obtain ⟨hfirst, -⟩ := List.pairwise_cons.mp h.apart
  refine orAll_and_eq_zero fun v hv => ?_
  obtain ⟨g, hg, rfl⟩ := List.mem_map.mp hv
  exact and_eq_zero_of_inside ((fieldsLaidOut_tail h).inside g hg) ((BitVec.and_comm ..).trans (hfirst g hg))

/-- Each value is read back by its mask. -/
theorem orAll_and_mask {fs : List (BitVec n × BitVec n)} (h : FieldsLaidOut fs) {f : BitVec n × BitVec n} (hf : f ∈ fs) :
    orAll (fs.map Prod.fst) &&& f.2 = f.1 := by
  induction hf with
  | head fs =>
    rw [List.map_cons, orAll_cons, BitVec.and_or_distrib_right, head_and_orAll_tail h, BitVec.or_zero,
      and_eq_self_of_inside (h.inside f List.mem_cons_self)]
  | @tail g fs hmem ih =>
    have hmiss : g.1 &&& f.2 = 0#n :=
      and_eq_zero_of_inside (h.inside g List.mem_cons_self) (List.rel_of_pairwise_cons h.apart hmem)
    rw [List.map_cons, orAll_cons, BitVec.and_or_distrib_right, hmiss, BitVec.zero_or, ih (fieldsLaidOut_tail h)]

/-- No bit lies outside the masks. -/
theorem orAll_inside_masks {fs : List (BitVec n × BitVec n)} (h : FieldsLaidOut fs) :
    orAll (fs.map Prod.fst) &&& ~~~orAll (fs.map Prod.snd) = 0#n := by
  refine orAll_and_eq_zero fun v hv => ?_
  obtain ⟨f, hf, rfl⟩ := List.mem_map.mp hv
  exact and_eq_zero_of_inside (h.inside f hf) (inside_orAll_of_mem (List.mem_map_of_mem hf))

/-- The OR of words without a common bit is their sum. -/
theorem uval_or_of_and_eq_zero {v w : BitVec n} (h : v &&& w = 0#n) : uval (v ||| w) = uval v + uval w := by
  simp only [uval, ← BitVec.add_eq_or_of_and_eq_zero v w h, BitVec.toNat_add_of_and_eq_zero h, Nat.cast_add]

/-- The ORs never collide: the word of the fields is the sum of their values. -/
theorem uval_orAll {fs : List (BitVec n × BitVec n)} (h : FieldsLaidOut fs) :
    uval (orAll (fs.map Prod.fst)) = (fs.map fun f => uval f.1).sum := by
  induction fs with
  | nil => simp [uval]
  | cons f fs ih =>
    have hmiss : f.1 &&& orAll (fs.map Prod.fst) = 0#n :=
      and_eq_zero_of_inside (h.inside f List.mem_cons_self) ((BitVec.and_comm ..).trans (head_and_orAll_tail h))
    rw [List.map_cons, orAll_cons, uval_or_of_and_eq_zero hmiss, ih (fieldsLaidOut_tail h), List.map_cons, List.sum_cons]

end Fields

/-! ### The six checks of PCFG (R71) -/

theorem cellsOk_iff (v : Half) : cellsOk v = true ↔ 2 ≤ uval v ∧ uval v ≤ 4 := by
  rw [cellsOk, Bool.and_eq_true, decide_eq_true_iff, decide_eq_true_iff]
  rfl

theorem thermsOk_iff (v : Half) : thermsOk v = true ↔ uval v ≤ 4 := decide_eq_true_iff

/-- Inputs that pass all six checks. -/
structure ConfigLegal (m : Config.Masks) (s : State) : Prop where
  cells : 2 ≤ uval (s.param 0) ∧ uval (s.param 0) ≤ 4
  therms : uval (s.param 1) ≤ 4
  thermistorType : s.param 2 &&& ~~~m.thermistorType = 0#16
  chargePumpVoltage : s.param 3 &&& ~~~m.chargePumpVoltage = 0#16
  regulatorMode : s.param 4 &&& ~~~m.regulatorMode = 0#16
  updateCadence : s.param 5 &&& ~~~m.updateCadence = 0#16

/-- The code of the inputs that a state holds (R71). -/
def State.configCode (s : State) : Half :=
  Machine.configCode (s.param 0) (s.param 1) (s.param 2) (s.param 3) (s.param 4) (s.param 5)

/-- What success of PCFG leaves. -/
def configDone (s : State) : State := doneResult (zext32 s.configCode) 0#32 s

/-- One check in a statement that reports the first failing one: the exception if it fails, else what the rest leaves. -/
theorem failureAfter_or_of_unlessRaise {ok : Bool} {e : Cause} {info : Word} {s goOn t : State} {bad : Prop} [Decidable bad]
    {Q : Prop} (ht : t = unlessRaise ok e info s goOn) (hok : ok = true ↔ ¬ bad) (hgo : ¬ bad → t = goOn → Q) :
    if bad then FailureAfter e info s t else Q := by
  rcases unlessRaise_cases ok e info s goOn with ⟨htrue, h⟩ | ⟨hfalse, h⟩
  · have hgood : ¬ bad := hok.mp htrue
    rw [if_neg hgood]
    exact hgo hgood (ht.trans h)
  · have hbad : bad := not_not.mp fun hgood => Bool.false_ne_true (hfalse.symm.trans (hok.mpr hgood))
    rw [if_pos hbad, ht, h]
    exact failureAfter_raise e info s

/-- A check that ends with `ERR` zero passed (R100, R101). -/
theorem passed_of_statErr_zero {ok : Bool} {e : Cause} {info : Word} {s goOn t : State}
    (ht : t = unlessRaise ok e info s goOn) (h : statErr t.stat = 0#3) : ok = true ∧ t = goOn := by
  subst ht
  exact unlessRaise_of_statErr_zero h

/-- PCFG with `ERR` zero afterwards had legal inputs and answered the code. -/
theorem configDone_of_statErr_zero {m : Config.Masks} {s t : State} (ht : t = encodeConfig m s) (h : statErr t.stat = 0#3) :
    ConfigLegal m s ∧ t = configDone s := by
  obtain ⟨hcells, ht⟩ := passed_of_statErr_zero ht h
  obtain ⟨htherms, ht⟩ := passed_of_statErr_zero ht h
  obtain ⟨hthType, ht⟩ := passed_of_statErr_zero ht h
  obtain ⟨hcpv, ht⟩ := passed_of_statErr_zero ht h
  obtain ⟨hregMode, ht⟩ := passed_of_statErr_zero ht h
  obtain ⟨hcadence, ht⟩ := passed_of_statErr_zero ht h
  exact ⟨⟨(cellsOk_iff _).mp hcells, (thermsOk_iff _).mp htherms, (fitsMask_iff _ _).mp hthType, (fitsMask_iff _ _).mp hcpv,
    (fitsMask_iff _ _).mp hregMode, (fitsMask_iff _ _).mp hcadence⟩, ht⟩

/-! ### The code of legal inputs (R72) -/

theorem enc16_uval (v : Half) : enc16 (uval v) = v := by
  rw [enc16, uval, BitVec.ofInt_natCast, BitVec.ofNat_toNat, BitVec.setWidth_eq]

theorem enc16_uval_sub_two (v : Half) : enc16 (uval v - 2) = v - 2#16 := by
  apply BitVec.eq_of_toNat_eq
  simp only [enc16, uval, BitVec.toNat_ofInt, BitVec.toNat_sub, BitVec.toNat_ofNat]
  omega

/-- `n_cells - 2` of a legal cell count. -/
theorem uval_sub_two {v : Half} (h : 2 ≤ uval v ∧ uval v ≤ 4) : uval (v - 2#16) = uval v - 2 := by
  simp only [uval, BitVec.toNat_sub, BitVec.toNat_ofNat] at h ⊢
  omega

/-- A legal cell count is one of three. -/
theorem cells_eq {v : Half} (h : 2 ≤ uval v ∧ uval v ≤ 4) : v = 2#16 ∨ v = 3#16 ∨ v = 4#16 := by
  simp only [uval, BitVec.toNat_eq, BitVec.toNat_ofNat] at h ⊢
  omega

/-- A legal thermistor count is one of five. -/
theorem therms_eq {v : Half} (h : uval v ≤ 4) : v = 0#16 ∨ v = 1#16 ∨ v = 2#16 ∨ v = 3#16 ∨ v = 4#16 := by
  simp only [uval, BitVec.toNat_eq, BitVec.toNat_ofNat] at h ⊢
  omega

/-- Shifted left by 2, a legal thermistor count loses no bit. -/
theorem uval_shiftLeft_two {v : Half} (h : uval v ≤ 4) : uval (v <<< 2) = 4 * uval v := by
  rcases therms_eq h with rfl | rfl | rfl | rfl | rfl <;> decide

theorem shiftLeft_two_shiftRight_two {v : Half} (h : uval v ≤ 4) : v <<< 2 >>> 2 = v := by
  rcases therms_eq h with rfl | rfl | rfl | rfl | rfl <;> decide

/-- The masks of the six fields (R72). -/
def configMasks (m : Config.Masks) : List Half := 0x0003#16 :: 0x001C#16 :: Config.enumFields.map m.field

/-- The six fields of the code, each with its mask (R72). -/
def configFields (m : Config.Masks) (s : State) : List (Half × Half) :=
  [(s.param 0 - 2#16, 0x0003#16), (s.param 1 <<< 2, 0x001C#16), (s.param 2, m.thermistorType),
    (s.param 3, m.chargePumpVoltage), (s.param 4, m.regulatorMode), (s.param 5, m.updateCadence)]

theorem configFields_masks (m : Config.Masks) (s : State) : (configFields m s).map Prod.snd = configMasks m := rfl

/-- The two count fields are the bits that R6 keeps the enumerants out of. -/
theorem orAll_configMasks (m : Config.Masks) :
    orAll (configMasks m) = 0x001F#16 ||| m.thermistorType ||| m.chargePumpVoltage ||| m.regulatorMode ||| m.updateCadence := by
  simp [configMasks, Config.enumFields, Config.Masks.field, ← BitVec.or_assoc]

/-- R6 keeps all six fields apart. -/
theorem configMasks_pairwise {m : Config.Masks} (hm : m.wf) : (configMasks m).Pairwise fun x y => x &&& y = 0#16 := by
  obtain ⟨hcount, hpair⟩ := (Config.masks_wf_iff m).mp hm
  have hcountField {c : Half} (hc : c &&& ~~~Config.countBits = 0#16) :
      ∀ x ∈ Config.enumFields.map m.field, c &&& x = 0#16 := by
    intro x hx
    obtain ⟨f, -, rfl⟩ := List.mem_map.mp hx
    exact and_eq_zero_of_inside hc ((BitVec.and_comm ..).trans (hcount f))
  have hfields : Config.enumFields.Pairwise (· ≠ ·) := by decide
  refine List.pairwise_cons.mpr ⟨List.forall_mem_cons.mpr ⟨by decide, hcountField (by decide)⟩, ?_⟩
  refine List.pairwise_cons.mpr ⟨hcountField (by decide), ?_⟩
  exact hfields.map m.field fun f g => hpair f g

/-- The code is the OR of its fields. -/
theorem configCode_eq_or (c t e2 e3 e4 e5 : Half) :
    configCode c t e2 e3 e4 e5 = (c - 2#16) ||| (t <<< 2) ||| e2 ||| e3 ||| e4 ||| e5 := by
  rw [configCode, enc16_uval_sub_two, enc16_uval]

theorem configCode_eq_orAll (m : Config.Masks) (s : State) :
    s.configCode = orAll ((configFields m s).map Prod.fst) := by
  simp [State.configCode, configCode_eq_or, configFields, BitVec.or_assoc]

/-- Legal inputs lie in their fields, and R6 keeps the fields apart. -/
theorem fieldsLaidOut_configFields {m : Config.Masks} (hm : m.wf) {s : State} (h : ConfigLegal m s) :
    FieldsLaidOut (configFields m s) where
  inside := by
    have hcells : (s.param 0 - 2#16) &&& ~~~0x0003#16 = 0#16 := by
      rcases cells_eq h.cells with hc | hc | hc <;> rw [hc] <;> decide
    have htherms : (s.param 1 <<< 2) &&& ~~~0x001C#16 = 0#16 := by
      rcases therms_eq h.therms with ht | ht | ht | ht | ht <;> rw [ht] <;> decide
    simp only [configFields, List.forall_mem_cons]
    exact ⟨hcells, htherms, h.thermistorType, h.chargePumpVoltage, h.regulatorMode, h.updateCadence, nofun⟩
  apart := by
    have hmasks := configMasks_pairwise hm
    rwa [← configFields_masks m s, List.pairwise_map] at hmasks

/-- The code of legal inputs, as a number (R71). -/
theorem uval_configCode {m : Config.Masks} (hm : m.wf) {s : State} (h : ConfigLegal m s) :
    uval s.configCode = (uval (s.param 0) - 2) + 4 * uval (s.param 1) + uval (s.param 2) + uval (s.param 3) +
      uval (s.param 4) + uval (s.param 5) := by
  rw [configCode_eq_orAll m, uval_orAll (fieldsLaidOut_configFields hm h)]
  simp only [configFields, List.map_cons, List.map_nil, List.sum_cons, List.sum_nil, uval_sub_two h.cells,
    uval_shiftLeft_two h.therms]
  ring

/-- Each field of the code of legal inputs is read back by its mask (R73). -/
theorem configCode_and_mask {m : Config.Masks} (hm : m.wf) {s : State} (h : ConfigLegal m s) :
    ∀ f ∈ configFields m s, s.configCode &&& f.2 = f.1 := by
  rw [configCode_eq_orAll m]
  exact fun f => orAll_and_mask (fieldsLaidOut_configFields hm h)

/-- No bit of the code of legal inputs lies outside the fields (R73). -/
theorem configCode_inside_masks {m : Config.Masks} (hm : m.wf) {s : State} (h : ConfigLegal m s) :
    s.configCode &&& ~~~(0x001F#16 ||| m.thermistorType ||| m.chargePumpVoltage ||| m.regulatorMode ||| m.updateCadence) =
      0#16 := by
  rw [← orAll_configMasks, ← configFields_masks m s, configCode_eq_orAll m]
  exact orAll_inside_masks (fieldsLaidOut_configFields hm h)

/-- Bits 1:0 are what the mask of the cell count keeps. -/
theorem extract_cells (v : Half) : v.extractLsb' 0 2 = (v &&& 0x0003#16).extractLsb' 0 2 := by
  rw [BitVec.extractLsb'_and]
  exact BitVec.and_allOnes.symm

/-- Bits 4:2 are what the mask of the thermistor count keeps. -/
theorem extract_therms (v : Half) : v.extractLsb' 2 3 = (v &&& 0x001C#16).extractLsb' 2 3 := by
  rw [BitVec.extractLsb'_and]
  exact BitVec.and_allOnes.symm

/-- A cell count that is legal is never encoded as 3. -/
theorem extract_sub_two_ne {v : Half} (h : 2 ≤ uval v ∧ uval v ≤ 4) : (v - 2#16).extractLsb' 0 2 ≠ 3#2 := by
  rcases cells_eq h with rfl | rfl | rfl <;> decide

/-- A thermistor count that is legal is encoded as at most 4. -/
theorem extract_shiftLeft_two_le {v : Half} (h : uval v ≤ 4) : ((v <<< 2).extractLsb' 2 3).toNat ≤ 4 := by
  rcases therms_eq h with rfl | rfl | rfl | rfl | rfl <;> decide

/-! ### The statements -/

/-- Settles O38: the checks are passed one by one (`failureAfter_or_of_unlessRaise`), and behind the last the code is the sum of
fields that do not overlap (`uval_configCode`). -/
theorem pcfgChecksThenEncodes : Obligations.PcfgChecksThenEncodes := by
  refine fun s => ⟨decode_encode (i := .pcfg) rfl, ?_⟩
  obtain ⟨t, ht⟩ : ∃ t, t = encodeConfig Config.masks s := ⟨_, rfl⟩
  refine ⟨t, congrArg Host.Outcome.next ht.symm, ?_⟩
  refine failureAfter_or_of_unlessRaise ht ((cellsOk_iff _).trans not_not.symm) fun hcells ht => ?_
  refine failureAfter_or_of_unlessRaise ht ((thermsOk_iff _).trans not_lt.symm) fun htherms ht => ?_
  refine failureAfter_or_of_unlessRaise ht ((fitsMask_iff _ _).trans not_not.symm) fun hthType ht => ?_
  refine failureAfter_or_of_unlessRaise ht ((fitsMask_iff _ _).trans not_not.symm) fun hcpv ht => ?_
  refine failureAfter_or_of_unlessRaise ht ((fitsMask_iff _ _).trans not_not.symm) fun hregMode ht => ?_
  refine failureAfter_or_of_unlessRaise ht ((fitsMask_iff _ _).trans not_not.symm) fun hcadence ht => ?_
  obtain rfl : t = configDone s := ht
  have hlegal : ConfigLegal Config.masks s :=
    ⟨not_not.mp hcells, not_lt.mp htherms, not_not.mp hthType, not_not.mp hcpv, not_not.mp hregMode, not_not.mp hcadence⟩
  refine ⟨resultAfter_doneResult _ _ s, zext32_high _, (zext32_low _).trans (configCode_eq_or ..), ?_⟩
  exact (uval_zext32 _).trans (uval_configCode (Config.masksOf_wf _) hlegal)

/-- Settles O39: with `ERR` zero the inputs were legal (`configDone_of_statErr_zero`), so each lies in a field of its own,
which its mask reads back (`configCode_and_mask`). -/
theorem pcfgCodeReadsBack : Obligations.PcfgCodeReadsBack := by
  intro s t hexec herr
  have hsame : ∀ s' t' : State, s'.p = s.p → exec .pcfg s' = .next t' → t'.res = t.res := fun s' t' hp hexec' =>
    (sameAnswer_of_exec (i := .pcfg) (fun k => by simp only [State.param, hp]) rfl hexec hexec').res
  obtain ⟨hlegal, rfl⟩ : ConfigLegal Config.masks s ∧ t = configDone s :=
    configDone_of_statErr_zero (Host.Outcome.next.inj hexec).symm herr
  have hwf : Config.masks.wf := Config.masksOf_wf _
  have hread := configCode_and_mask hwf hlegal
  simp only [configFields, List.forall_mem_cons] at hread
  obtain ⟨hcells, htherms, hthType, hcpv, hregMode, hcadence, -⟩ := hread
  refine ⟨s.configCode, rfl, ?_, ?_, configCode_inside_masks hwf hlegal, ?_, ?_, hthType, hcpv, hregMode, hcadence, hsame⟩
  · rw [extract_cells, hcells]
    exact extract_sub_two_ne hlegal.cells
  · rw [extract_therms, htherms]
    exact extract_shiftLeft_two_le hlegal.therms
  · rw [hcells]
    exact uval_sub_two hlegal.cells
  · rw [htherms]
    exact shiftLeft_two_shiftRight_two hlegal.therms

end Sys2Proof.Machine

/-! PROOFS of the statements of spec/42_threshold.md: valid thresholds (R75), the threshold commands (R76 to R83), the round trips of
a pair (R84) and the order of a pair (R85). -/

namespace Sys2Proof.Machine

/-! ### Words and their low bits -/

/-- Different words have different values. -/
theorem uval_inj {n : Nat} {v w : BitVec n} : uval v = uval w ↔ v = w := by
  rw [uval, uval, Int.natCast_inj, BitVec.toNat_inj]

/-- The low bits hold an unsigned value that fits them. -/
theorem uval_extractLow {n m : Nat} {v : BitVec n} (h : uval v < 2 ^ m) : uval (v.extractLsb' 0 m) = uval v := by
  have hlt : v.toNat < 2 ^ m := by
    unfold uval at h
    exact_mod_cast h
  rw [uval, BitVec.extractLsb'_toNat, Nat.shiftRight_zero, Nat.mod_eq_of_lt hlt, uval]

/-- The low bits hold a signed value that fits them. -/
theorem sval_extractLow {n m : Nat} (hm : 0 < m) (hmn : m ≤ n) {v : BitVec n} (h0 : -2 ^ (m - 1) ≤ sval v)
    (h : sval v < 2 ^ (m - 1)) : sval (v.extractLsb' 0 m) = sval v := by
  have hlow : v.extractLsb' 0 m = BitVec.ofInt m (sval v) := by
    apply BitVec.eq_of_toInt_eq
    rw [BitVec.toInt_extractLsb', Nat.shiftRight_zero, BitVec.toInt_ofInt, sval, BitVec.toInt_eq_toNat_bmod,
      Int.bmod_bmod_of_dvd (Nat.pow_dvd_pow 2 hmn)]
  rw [hlow]
  exact BitVec.toInt_ofInt_eq_self hm h0 h

/-- Zero extension of a byte keeps the unsigned value. -/
theorem uval_zext32_byte (b : Byte) : uval (zext32 b) = uval b := by
  simp only [uval, zext32, BitVec.toNat_setWidth_of_le (show 8 ≤ 32 by decide)]

/-- Sign extension of a byte keeps the signed value. -/
theorem sval_sext32_byte (b : Byte) : sval (sext32 b) = sval b :=
  BitVec.toInt_signExtend_of_le (by decide)

/-- The range of a signed byte. -/
theorem sval_byte_range (b : Byte) : -128 ≤ sval b ∧ sval b ≤ 127 := by
  have h0 : -2 ^ 7 ≤ sval b := BitVec.le_toInt b
  have h : sval b < 2 ^ 7 := BitVec.toInt_lt
  omega

/-- An unsigned byte widened to a word, in the low half. -/
theorem uval_low_zext32 (b : Byte) : uval ((zext32 b).extractLsb' 0 16) = uval b := by
  have hb : uval b < 2 ^ 8 := uval_lt b
  rw [uval_extractLow (by rw [uval_zext32_byte]; omega), uval_zext32_byte]

/-- A signed byte widened to a word, in the low half. -/
theorem sval_low_sext32 (b : Byte) : sval ((sext32 b).extractLsb' 0 16) = sval b := by
  have hrange := sval_byte_range b
  have hexact := sval_sext32_byte b
  rw [sval_extractLow (by decide) (by decide) (by omega) (by omega), hexact]

/-- `enc_8` of the value of a byte is the byte. -/
theorem enc8_uval (b : Byte) : enc8 (uval b) = b := by
  rw [enc8, uval, BitVec.ofInt_natCast, BitVec.ofNat_toNat, BitVec.setWidth_eq]

/-- `enc_32` of the unsigned value is zero extension. -/
theorem enc32_uval {n : Nat} (v : BitVec n) : enc32 (uval v) = zext32 v := by
  rw [enc32, uval, BitVec.ofInt_natCast, BitVec.ofNat_toNat, zext32]

/-- `enc_32` of a signed value that is not negative is zero extension too. -/
theorem enc32_sval_of_nonneg {v : Half} (h : 0 ≤ sval v) : enc32 (sval v) = zext32 v := by
  have hmsb : v.msb = false := by
    rw [← Bool.not_eq_true, BitVec.msb_eq_toInt, decide_eq_true_iff]
    exact not_lt.mpr h
  rw [← enc32_uval, sval, uval, BitVec.toInt_eq_toNat_of_msb hmsb]

/-! ### The two bytes of a pair (R33) -/

theorem pairWord_hiByte_loByte (w : Half) : pairWord (hiByte w) (loByte w) = w :=
  BitVec.extractLsb'_append_extractLsb' (w := 8) (len := 8)

theorem hiByte_pairWord (hi lo : Byte) : hiByte (pairWord hi lo) = hi := BitVec.extractLsb'_append_eq_left

theorem loByte_pairWord (hi lo : Byte) : loByte (pairWord hi lo) = lo := BitVec.extractLsb'_append_eq_right

/-- A half word as its two bytes. -/
theorem uval_hiByte_loByte (w : Half) : uval (hiByte w) * 256 + uval (loByte w) = uval w := by
  simp only [uval, hiByte, loByte, BitVec.extractLsb'_toNat, Nat.shiftRight_eq_div_pow]
  omega

/-- The high byte of a pair in the low half of a word. -/
theorem zext32_hiByte (w : Half) : (zext32 w).extractLsb' 8 8 = hiByte w :=
  BitVec.extractLsb'_setWidth_of_le (by decide)

/-- The low byte of a pair in the low half of a word. -/
theorem zext32_loByte (w : Half) : (zext32 w).extractLsb' 0 8 = loByte w :=
  BitVec.extractLsb'_setWidth_of_le (by decide)

/-! ### Valid thresholds and their bytes (R75, R77) -/

/-- The byte of the millivolts of a byte. -/
theorem vthByte_byteMv (b : Byte) : vthByte (byteMv b) = uval b := Int.mul_ediv_cancel _ (by decide)

/-- Different bytes have different millivolts. -/
theorem byteMv_inj {b b' : Byte} : byteMv b = byteMv b' ↔ b = b' := by
  refine ⟨fun h => uval_inj.mp ?_, congrArg byteMv⟩
  rw [← vthByte_byteMv b, h, vthByte_byteMv]

/-- The byte that encodes a valid threshold has its millivolts. -/
theorem byteMv_enc8_vthByte {v : Int} (h : IsThreshold v) : byteMv (enc8 (vthByte v)) = v := by
  obtain ⟨h0, hmax, hstep⟩ := h
  have hbyte : vthByte v = v / 20 := rfl
  have hexact : uval (enc8 (v / 20)) = v / 20 := by
    simp only [uval, enc8, BitVec.toNat_ofInt]
    omega
  have hmv : byteMv (enc8 (v / 20)) = uval (enc8 (v / 20)) * 20 := rfl
  rw [hbyte, hmv, hexact]
  omega

/-- R75: the valid thresholds are the millivolts of the bytes. -/
theorem isThreshold_iff_byteMv {v : Int} : IsThreshold v ↔ ∃ b : Byte, v = byteMv b := by
  refine ⟨fun h => ⟨_, (byteMv_enc8_vthByte h).symm⟩, ?_⟩
  rintro ⟨b, rfl⟩
  exact isThreshold_byteMv b

/-- The millivolts of a byte fit a half word. -/
theorem sval_low_byteMv (b : Byte) : sval ((enc32 (byteMv b)).extractLsb' 0 16) = byteMv b := by
  obtain ⟨h0, hmax, -⟩ := isThreshold_byteMv b
  have hexact : sval (enc32 (byteMv b)) = byteMv b := sval_enc32 (by omega) (by omega)
  rw [sval_extractLow (by decide) (by decide) (by omega) (by omega), hexact]

/-! ### EVTHB and CVTHB on the value of a byte (R69, R77) -/

/-- EVTHB of the millivolts of a byte answers the byte. -/
theorem exec_evthb_of_byteMv {v : Half} {b : Byte} (h : sval v = byteMv b) (s : State) :
    exec (.evthb v) s = .next (doneResult (zext32 b) 0#32 s) := by
  have hvalid : validVth (sval v) = true := validVth_iff.mpr (h ▸ isThreshold_byteMv b)
  simp only [exec, execEvthb, hvalid, unlessRaise_true]
  rw [h, vthByte_byteMv, enc32_uval]

/-- EVTHB of anything else reports the operand (spec/60_exceptions.md R104). -/
theorem exec_evthb_of_not_isThreshold {v : Half} (h : ¬ IsThreshold (sval v)) (s : State) :
    exec (.evthb v) s = .next (raise .invalidConfigurationValue (sext32 v) s) := by
  have hbad : validVth (sval v) = false := Bool.not_eq_true _ ▸ mt validVth_iff.mp h
  simp only [exec, execEvthb, hbad, unlessRaise_false]

/-- CVTHB of a byte answers its millivolts. -/
theorem exec_cvthb_of_uval {v : Half} {b : Byte} (h : uval v = uval b) (s : State) :
    exec (.cvthb v) s = .next (doneResult (enc32 (byteMv b)) 0#32 s) := by
  have hlt : uval b < 2 ^ 8 := uval_lt b
  have hle : uval v ≤ 255 := by omega
  have hbyte : loByte v = b := uval_inj.mp ((uval_loByte_of_le hle).trans h)
  rw [exec_cvthb_of_le hle, hbyte]

/-- CVTHB of a byte, then EVTHB of its result, gives the byte back (R77). -/
theorem evthb_of_cvthb (b : Byte) (s : State) : ∃ t u, exec (.cvthb (b.setWidth 16)) s = .next t ∧
    exec (.evthb (t.res.extractLsb' 0 16)) t = .next u ∧ u.res = b.setWidth 32 := by
  have hbyte : uval (b.setWidth 16) = uval b := by
    simp only [uval, BitVec.toNat_setWidth_of_le (show 8 ≤ 16 by decide)]
  exact ⟨_, _, exec_cvthb_of_uval hbyte s, exec_evthb_of_byteMv (sval_low_byteMv b) _, rfl⟩

/-- EVTHB of a valid threshold, then CVTHB of its result, gives the threshold back (R77). -/
theorem cvthb_of_evthb {v : Half} (hv : IsThreshold (sval v)) (s : State) : ∃ t u, exec (.evthb v) s = .next t ∧
    exec (.cvthb (t.res.extractLsb' 0 16)) t = .next u ∧ u.res = v.setWidth 32 := by
  obtain ⟨b, hb⟩ := isThreshold_iff_byteMv.mp hv
  obtain ⟨h0, -⟩ := hv
  refine ⟨_, _, exec_evthb_of_byteMv hb s, exec_cvthb_of_uval (uval_low_zext32 b) _, ?_⟩
  rw [doneResult_res, ← hb]
  exact enc32_sval_of_nonneg h0

/-! ### The three encodings of a pair: what each checks of an operand, and the byte it answers for it (R78 to R80) -/

/-- An encoding of operands as bytes: the check passes exactly the operands that are worth as much as some byte, and the byte
answered is that one. -/
def EncodesBytes (ok : Half → Bool) (toByte : Half → Byte) (operand : Half → Int) (value : Byte → Int) : Prop :=
  ∀ v b, operand v = value b ↔ ok v = true ∧ toByte v = b

/-- EVTH: operands are signed millivolts, a byte is worth 20 a step (R78). -/
theorem encodesBytes_evth :
    EncodesBytes (fun v => validVth (sval v)) (fun v => enc8 (vthByte (sval v))) sval byteMv := by
  refine fun v b => ⟨fun h => ⟨?_, ?_⟩, ?_⟩
  · exact validVth_iff.mpr (h ▸ isThreshold_byteMv b)
  · simp only [h, vthByte_byteMv, enc8_uval]
  · rintro ⟨hvalid, rfl⟩
    exact (byteMv_enc8_vthByte (validVth_iff.mp hvalid)).symm

/-- PACK: operands and bytes are unsigned (R79). -/
theorem encodesBytes_pack : EncodesBytes fitsUnsignedByte loByte uval uval := by
  intro v b
  have hb : uval b < 2 ^ 8 := uval_lt b
  refine ⟨fun h => ?_, ?_⟩
  · have hle : uval v ≤ 255 := by omega
    exact ⟨decide_eq_true hle, uval_inj.mp ((uval_loByte_of_le hle).trans h)⟩
  · rintro ⟨hle, rfl⟩
    exact (uval_loByte_of_le (of_decide_eq_true hle)).symm

theorem fitsSignedByte_iff (v : Half) : fitsSignedByte v = true ↔ -128 ≤ sval v ∧ sval v ≤ 127 := by
  rw [fitsSignedByte, Bool.and_eq_true, decide_eq_true_iff, decide_eq_true_iff]

/-- The byte of an operand that is a signed one. -/
theorem sval_loByte_of_fits {v : Half} (h : -128 ≤ sval v ∧ sval v ≤ 127) : sval (loByte v) = sval v :=
  sval_extractLow (by decide) (by decide) (by omega) (by omega)

/-- PACKS: operands and bytes are signed (R80). -/
theorem encodesBytes_packs : EncodesBytes fitsSignedByte loByte sval sval := by
  refine fun v b => ⟨fun h => ?_, ?_⟩
  · have hfits : -128 ≤ sval v ∧ sval v ≤ 127 := h ▸ sval_byte_range b
    exact ⟨(fitsSignedByte_iff v).mpr hfits, BitVec.eq_of_toInt_eq ((sval_loByte_of_fits hfits).trans h)⟩
  · rintro ⟨hfits, rfl⟩
    exact (sval_loByte_of_fits ((fitsSignedByte_iff v).mp hfits)).symm

section Pairs

variable {ok : Half → Bool} {widen : Half → Word} {toByte : Half → Byte} {operand : Half → Int} {value : Byte → Int}

/-- A pair command reports the minimum, else the maximum, else answers two bytes that are worth the operands. -/
theorem encodePair_reports {bad : Half → Prop} [DecidablePred bad] (h : EncodesBytes ok toByte operand value)
    (hok : ∀ v, ok v = true ↔ ¬ bad v) {s t : State} (ht : t = encodePair ok widen toByte s) :
    if bad (s.param 0) then FailureAfter .invalidConfigurationValue (widen (s.param 0)) s t
    else if bad (s.param 1) then FailureAfter .invalidConfigurationValue (widen (s.param 1)) s t
    else
      ResultAfter t.res 0#32 s t ∧ t.res.extractLsb' 16 16 = 0#16 ∧
      value (t.res.extractLsb' 8 8) = operand (s.param 1) ∧ value (t.res.extractLsb' 0 8) = operand (s.param 0) := by
  refine failureAfter_or_of_unlessRaise ht (hok _) fun hmin ht => ?_
  refine failureAfter_or_of_unlessRaise ht (hok _) fun hmax ht => ?_
  subst ht
  have hworth : ∀ v, ¬ bad v → value (toByte v) = operand v := fun v hv => ((h v _).mpr ⟨(hok v).mpr hv, rfl⟩).symm
  refine ⟨resultAfter_doneResult _ _ s, zext32_high _, ?_, ?_⟩
  · rw [doneResult_res, zext32_hiByte, hiByte_pairWord, hworth _ hmax]
  · rw [doneResult_res, zext32_loByte, loByte_pairWord, hworth _ hmin]

/-- Operands that are worth the two bytes of `w` are encoded as `w`. -/
theorem encodePair_of_worth (h : EncodesBytes ok toByte operand value) {s : State} {w : Half}
    (hmin : operand (s.param 0) = value (loByte w)) (hmax : operand (s.param 1) = value (hiByte w)) :
    encodePair ok widen toByte s = doneResult (zext32 w) 0#32 s := by
  obtain ⟨hminOk, hlo⟩ := (h _ _).mp hmin
  obtain ⟨hmaxOk, hhi⟩ := (h _ _).mp hmax
  rw [encodePair, hminOk, hmaxOk, unlessRaise_true, unlessRaise_true, hlo, hhi, pairWord_hiByte_loByte]

/-- The pseudo-instruction of a pair command: two loads, then the command, which answers the pair its operands are worth (R55). -/
theorem runCommands_pair {i : Instr} (hwf : i.wellFormed = true) (hexec : ∀ u, exec i u = .next (encodePair ok widen toByte u))
    (h : EncodesBytes ok toByte operand value) {lo hi w : Half} (hmin : operand lo = value (loByte w))
    (hmax : operand hi = value (hiByte w)) (s : State) :
    ∃ u, runCommands ([.ldp 0#3 lo, .ldp 1#3 hi, i].map encode) s = .next u ∧ statErr u.stat = 0#3 ∧ u.res = w.setWidth 32 := by
  have hloads := runCommands_loads [(0, lo), (1, hi)] s
  have hparam0 : (s.loadAll [(0, lo), (1, hi)]).param 0 = lo := by simp [State.loadAll]
  have hparam1 : (s.loadAll [(0, lo), (1, hi)]).param 1 = hi := by simp [State.loadAll]
  refine ⟨_, (runCommands_last hloads hwf).trans (hexec _), ?_⟩
  rw [encodePair_of_worth h (w := w) (by rw [hparam0, hmin]) (by rw [hparam1, hmax])]
  exact ⟨(doneResult_stat_fields ..).1, rfl⟩

/-- A pair command succeeds exactly if both operands pass the check: neither is compared with the other (R85). -/
theorem statErr_encodePair_eq_zero_iff (s : State) :
    statErr (encodePair ok widen toByte s).stat = 0#3 ↔ ok (s.param 0) = true ∧ ok (s.param 1) = true := by
  refine ⟨fun h => ?_, fun ⟨hmin, hmax⟩ => ?_⟩
  · obtain ⟨hmin, hrest⟩ := passed_of_statErr_zero (t := encodePair ok widen toByte s) rfl h
    obtain ⟨hmax, -⟩ := passed_of_statErr_zero hrest h
    exact ⟨hmin, hmax⟩
  · rw [encodePair, hmin, hmax]
    exact (doneResult_stat_fields ..).1

/-- Exchanging the operands of a pair command does not change whether it succeeds (R85). -/
theorem statErr_encodePair_swap {s s' : State} (h0 : s'.param 0 = s.param 1) (h1 : s'.param 1 = s.param 0) :
    statErr (encodePair ok widen toByte s).stat = 0#3 ↔ statErr (encodePair ok widen toByte s').stat = 0#3 := by
  rw [statErr_encodePair_eq_zero_iff, statErr_encodePair_eq_zero_iff, h0, h1, and_comm]

end Pairs

/-- SETVTH of two thresholds, then DVTH of its result, gives both back (R84 b). -/
theorem dvth_of_setvth {lo hi : Half} (hlo : IsThreshold (sval lo)) (hhi : IsThreshold (sval hi)) (s : State) :
    ∃ t u, runCommands ((setvth lo hi).map encode) s = .next t ∧
      runCommand (encode (.dvth (t.res.extractLsb' 0 16))) t = .next u ∧ uval u.aux = sval lo ∧ uval u.res = sval hi := by
  obtain ⟨bmin, hmin⟩ := isThreshold_iff_byteMv.mp hlo
  obtain ⟨bmax, hmax⟩ := isThreshold_iff_byteMv.mp hhi
  obtain ⟨t, ht, -, hres⟩ := runCommands_pair (i := .evth) (w := pairWord bmax bmin) rfl (fun _ => rfl) encodesBytes_evth
    (by rw [hmin, loByte_pairWord]) (by rw [hmax, hiByte_pairWord]) s
  have hpair : t.res.extractLsb' 0 16 = pairWord bmax bmin := by
    rw [hres]
    exact zext32_low _
  refine ⟨t, _, ht, runCommand_encode rfl t, ?_, ?_⟩
  · rw [hpair, doneResult_aux, loByte_pairWord, uval_enc32_byteMv, hmin]
  · rw [hpair, doneResult_res, hiByte_pairWord, uval_enc32_byteMv, hmax]

/-! ### The statements -/

/-- Settles O40: a valid threshold is the millivolts of the byte that encodes it (`isThreshold_iff_byteMv`). -/
theorem validThresholdsAreTheByteSteps : Obligations.ValidThresholdsAreTheByteSteps :=
  ⟨fun _ => validVth_iff, fun _ => validVth_iff.trans isThreshold_iff_byteMv, fun _ _ => byteMv_inj.mp⟩

/-- Settles O42: a valid threshold is the millivolts of a byte, which EVTHB answers and CVTHB turns back. -/
theorem evthbInvertsCvthb : Obligations.EvthbInvertsCvthb := by
  refine ⟨fun imm s => ⟨decode_encode (i := .evthb imm) rfl, ?_⟩, evthb_of_cvthb, fun v s hv => cvthb_of_evthb hv s⟩
  by_cases hvalid : IsThreshold (sval imm)
  · obtain ⟨b, hb⟩ := isThreshold_iff_byteMv.mp hvalid
    have hlt : uval b < 2 ^ 8 := uval_lt b
    refine ⟨_, exec_evthb_of_byteMv hb s, fun _ => ⟨resultAfter_doneResult _ _ s, ?_, ?_⟩, fun h => absurd hvalid h⟩
    · rw [doneResult_res, uval_zext32_byte, hb]
      rfl
    · rw [doneResult_res, uval_zext32_byte]
      omega
  · exact ⟨_, exec_evthb_of_not_isThreshold hvalid s, fun h => absurd h hvalid, fun _ => failureAfter_raise _ _ s⟩

/-- Settles O43: the checks and the bytes of EVTH are those of `encodesBytes_evth`. -/
theorem evthEncodesThePair : Obligations.EvthEncodesThePair :=
  fun _ => ⟨decode_encode (i := .evth) rfl, _, rfl, encodePair_reports (bad := fun v => ¬ IsThreshold (sval v))
    encodesBytes_evth (fun _ => validVth_iff.trans not_not.symm) rfl⟩

/-- Settles O44: the checks and the bytes of PACK are those of `encodesBytes_pack`. -/
theorem packRefusesMoreThanAByte : Obligations.PackRefusesMoreThanAByte :=
  fun _ => ⟨decode_encode (i := .pack) rfl, _, rfl, encodePair_reports (bad := fun v => 255 < uval v)
    encodesBytes_pack (fun _ => decide_eq_true_iff.trans not_lt.symm) rfl⟩

/-- Settles O45: the checks and the bytes of PACKS are those of `encodesBytes_packs`. -/
theorem packsRefusesMoreThanASignedByte : Obligations.PacksRefusesMoreThanASignedByte :=
  fun _ => ⟨decode_encode (i := .packs) rfl, _, rfl, encodePair_reports (bad := fun v => sval v < -128 ∨ 127 < sval v)
    encodesBytes_packs (fun v => (fitsSignedByte_iff v).trans (by rw [not_or, not_lt, not_lt])) rfl⟩

/-- Settles O46: zero extension keeps the unsigned bytes, which make up the operand, and sign extension the signed ones. -/
theorem unpackSplitsThePair : Obligations.UnpackSplitsThePair := by
  refine fun imm s => ⟨decode_encode (i := .unpk imm) rfl, decode_encode (i := .unpks imm) rfl,
    ⟨_, rfl, resultAfter_doneResult _ _ s, ?_⟩, ⟨_, rfl, resultAfter_doneResult _ _ s, ?_⟩⟩
  · rw [doneResult_res, doneResult_aux, uval_zext32_byte, uval_zext32_byte, uval_hiByte_loByte]
  · obtain ⟨hmax0, hmax⟩ := sval_byte_range (hiByte imm)
    obtain ⟨hmin0, hmin⟩ := sval_byte_range (loByte imm)
    rw [doneResult_res, doneResult_aux, sval_sext32_byte, sval_sext32_byte]
    exact ⟨hmax0, hmax, hmin0, hmin⟩

/-- Settles O47: the millivolts of each byte fit their register (`uval_enc32_byteMv`). -/
theorem dvthDecodesThePair : Obligations.DvthDecodesThePair := by
  refine fun imm s => ⟨decode_encode (i := .dvth imm) rfl, _, rfl, resultAfter_doneResult _ _ s, ?_⟩
  obtain ⟨-, hmax, -⟩ := isThreshold_byteMv (hiByte imm)
  obtain ⟨-, hmin, -⟩ := isThreshold_byteMv (loByte imm)
  rw [doneResult_res, doneResult_aux, uval_enc32_byteMv, uval_enc32_byteMv]
  exact ⟨rfl, rfl, hmax, hmin⟩

/-- Settles O48: the decoding commands answer what the two bytes are worth, and operands worth two bytes are encoded as them
(`runCommands_pair`). -/
theorem pairRoundTrips : Obligations.PairRoundTrips := by
  refine ⟨fun w s => ?_, fun lo hi s hlo hhi => dvth_of_setvth hlo hhi s, fun w s => ?_, fun w s => ?_⟩
  · exact ⟨_, (runCommands_pair (i := .evth) rfl (fun _ => rfl) encodesBytes_evth (sval_low_byteMv _) (sval_low_byteMv _) _).imp
      fun _ h => ⟨runCommand_encode rfl s, h⟩⟩
  · exact ⟨_, (runCommands_pair (i := .pack) rfl (fun _ => rfl) encodesBytes_pack (uval_low_zext32 _) (uval_low_zext32 _) _).imp
      fun _ h => ⟨runCommand_encode rfl s, h⟩⟩
  · exact ⟨_, (runCommands_pair (i := .packs) rfl (fun _ => rfl) encodesBytes_packs (sval_low_sext32 _) (sval_low_sext32 _) _).imp
      fun _ h => ⟨runCommand_encode rfl s, h⟩⟩

/-- Settles O49: each of the three checks both operands alike (`statErr_encodePair_swap`). -/
theorem pairOrderIsNotCompared : Obligations.PairOrderIsNotCompared := by
  intro i s s' t t' hi h0 h1 ht ht'
  rcases hi with rfl | rfl | rfl
  all_goals
    cases ht; cases ht'
    exact statErr_encodePair_swap h0 h1

/-- Settles O41: VVTH answers the predicate of R75. -/
theorem vvthAnswersValidity : Obligations.VvthAnswersValidity := by
  refine fun imm s => ⟨decode_encode (i := .vvth imm) rfl, _, rfl, ?_⟩
  simp only [validVth_iff]
  exact resultAfter_doneResult _ _ s

end Sys2Proof.Machine

/-! PROOFS of the statements of spec/43_housekeeping.md: what LDRS (R90), LDP (R91) and CLRE (R92) load, clear and keep. -/

namespace Sys2Proof.Machine

/-! ### LDP by its parameter number (R47, R91) -/

/-- LDP with a parameter number loads the register of that number. -/
theorem exec_ldp_of_le {k : BitVec 3} (hk : k.toNat ≤ 5) (imm : Half) (s : State) :
    exec (.ldp k imm) s = .next (s.load ⟨k.toNat, by omega⟩ imm) := by
  simp only [exec, execLdp, paramIndex_of_le hk, State.load]

/-- A load changes the register it names and no other. -/
theorem load_param (s : State) (k j : Fin 6) (v : Half) :
    (s.load k v).param j = if j.val = k.val then v else s.param j := by
  split
  case isTrue h =>
    obtain rfl : j = k := Fin.ext h
    exact load_param_same s j v
  case isFalse h => exact load_param_other s v fun hjk => h (congrArg Fin.val hjk)

/-- The words of LDP with 6 and 7 are in no row of the opcode map (R50 d). -/
theorem not_legalWord_ldp {k : BitVec 3} (hk : ¬ k.toNat ≤ 5) (imm : Half) :
    legalWord (commandWord 0x02#8 (0#5 ++ k) imm) = false := by
  have hparam : k = 6#3 ∨ k = 7#3 := (param_gt_iff k).mp hk
  rw [← Bool.not_eq_true, legalWord_iff_decode, exists_decode_ok_iff, not_legalFields_iff, cmdOpc_commandWord, cmdParam_ldp]
  exact .inr (.inr (.inr ⟨rfl, .inr hparam⟩))

/-! ### The statements -/

/-- Settles O50: the two checks are passed one by one (`failureAfter_or_of_unlessRaise`), the one of `CALV` first. -/
theorem ldrsLoadsOnce : Obligations.LdrsLoadsOnce := by
  refine fun imm s => ⟨decode_encode (i := .ldrs imm) rfl, _, rfl, ?_⟩
  refine failureAfter_or_of_unlessRaise rfl (by simp) fun _ ht => ?_
  refine failureAfter_or_of_unlessRaise ht bne_iff_ne fun _ ht => ?_
  rw [ht]
  exact ⟨housekeepingAfter_calibrate s imm, rfl, by simp, by simp, rfl⟩

/-- Settles O51: with a parameter number LDP is a load of that register, which has the rules of `State.load`; the other words of its
opcode are illegal (`not_legalWord_ldp`). -/
theorem ldpLoadsOneRegister : Obligations.LdpLoadsOneRegister := by
  refine fun k imm s => ⟨fun hk => ?_, fun hk => ?_⟩
  · exact ⟨decode_encode (i := .ldp k imm) (decide_eq_true hk), _, exec_ldp_of_le hk imm s, housekeepingAfter_load s _ imm,
      fun j => load_param s _ j imm, load_rsense s _ imm, load_calv s _ imm, load_se s _ imm⟩
  · exact ⟨_, runCommand_of_not_legalWord (not_legalWord_ldp (by omega) imm) s, failureAfter_raise _ _ s⟩

/-- Settles O52: CLRE clears `SE` and ends as every housekeeping success does (`housekeepingAfter_clear`). -/
theorem clreClearsTheStickyFlag : Obligations.ClreClearsTheStickyFlag :=
  fun s => ⟨decode_encode (i := .clre) rfl, _, rfl, housekeepingAfter_clear s, by simp, by simp, rfl, rfl⟩

end Sys2Proof.Machine

/-! PROOFS of the statements of spec/60_exceptions.md: which exception a command word reports (R104 to R108), that past outcomes are
not read (R111), and the sticky flag (R113). -/

namespace Sys2Proof.Machine

/-! ### Reporting the first check that fails (R104, R106 to R108) -/

/-- `t` reports from `s` the exception named, if one is; else it succeeds (R100, R101). -/
def Reports (failure : Option (Cause × Word)) (s t : State) : Prop :=
  match failure with
  | some (e, info) => FailureAfter e info s t
  | none => statErr t.stat = 0#3 ∧ t.errval = 0#32

/-- A failing check of an operand's value, as a reported failure (R104). -/
abbrev invalidValue (failing : Option Word) : Option (Cause × Word) := failing.map fun v => (.invalidConfigurationValue, v)

theorem reports_doneResult (r a : Word) (s : State) : Reports none s (doneResult r a s) :=
  ⟨(resultAfter_doneResult r a s).err, rfl⟩

theorem reports_of_housekeepingAfter {s t : State} (h : HousekeepingAfter s t) : Reports none s t := ⟨h.err, h.errval⟩

/-- A check is reported if it fails, and hides every later failure (R108). -/
theorem reports_unlessRaise {ok : Bool} {e : Cause} {info : Word} {s goOn : State} {bad : Prop} [Decidable bad]
    {later : Option (Cause × Word)} (hok : ok = true ↔ ¬ bad) (hgo : Reports later s goOn) :
    Reports ((if bad then some (e, info) else none).or later) s (unlessRaise ok e info s goOn) := by
  by_cases hbad : bad
  · have hfails : ok = false := (Bool.not_eq_true _).mp (mt hok.mp (not_not.mpr hbad))
    rw [if_pos hbad, hfails]
    exact failureAfter_raise e info s
  · rw [if_neg hbad, hok.mpr hbad]
    exact hgo

/-- `reports_unlessRaise` for a check of an operand's value. -/
theorem reports_unlessInvalid {ok : Bool} {info : Word} {s goOn : State} {bad : Prop} [Decidable bad] {later : Option Word}
    (hok : ok = true ↔ ¬ bad) (hgo : Reports (invalidValue later) s goOn) :
    Reports (invalidValue (if bad then some info else later)) s (unlessRaise ok .invalidConfigurationValue info s goOn) := by
  have hfirst : invalidValue (if bad then some info else later) =
      (if bad then some (.invalidConfigurationValue, info) else none).or (invalidValue later) := by
    split <;> rfl
  rw [hfirst]
  exact reports_unlessRaise hok hgo

/-- CCAP and CCUR report a missing calibration (R106). -/
theorem reports_divideByRsense (n : Int) (imm : Half) (s : State) :
    Reports ((if statCalv s.stat = false then some (.notCalibrated, zext32 imm) else none).or none) s (divideByRsense n imm s) :=
  reports_unlessRaise (Bool.not_eq_false _).to_iff.symm (reports_doneResult _ _ s)

/-- EVTH, PACK and PACKS report the minimum before the maximum (R104, R108). -/
theorem reports_encodePair {ok : Half → Bool} {bad : Half → Prop} [DecidablePred bad] (hok : ∀ v, ok v = true ↔ ¬ bad v)
    (widen : Half → Word) (toByte : Half → Byte) (s : State) :
    Reports (invalidValue
      (if bad (s.param 0) then some (widen (s.param 0)) else if bad (s.param 1) then some (widen (s.param 1)) else none))
      s (encodePair ok widen toByte s) :=
  reports_unlessInvalid (hok _) <| reports_unlessInvalid (hok _) <| reports_doneResult _ _ s

/-- PCFG reports the first of its six inputs that fails (R104, R108). -/
theorem reports_encodeConfig (s : State) :
    Reports (invalidValue (invalidInput .pcfg s)) s (encodeConfig Config.masks s) := by
  have hcells : cellsOk (s.param 0) = true ↔ ¬ (uval (s.param 0) < 2 ∨ 4 < uval (s.param 0)) := by
    rw [cellsOk_iff, not_or, not_lt, not_lt]
  have htherms : thermsOk (s.param 1) = true ↔ ¬ 4 < uval (s.param 1) := (thermsOk_iff _).trans not_lt.symm
  have hmask (v mask : Half) : fitsMask v mask = true ↔ ¬ v &&& ~~~mask ≠ 0#16 := (fitsMask_iff v mask).trans not_not.symm
  exact reports_unlessInvalid hcells <| reports_unlessInvalid htherms <| reports_unlessInvalid (hmask _ _) <|
    reports_unlessInvalid (hmask _ _) <| reports_unlessInvalid (hmask _ _) <| reports_unlessInvalid (hmask _ _) <|
    reports_doneResult _ _ s

/-- The exception that a decoded command reports: the state precondition first, then the operands (R108). -/
def commandFailure (i : Instr) (s : State) : Option (Cause × Word) :=
  (unmetPrecondition i s).or (invalidValue (invalidInput i s))

theorem reportedFailure_of_decode {w : Word} {i : Instr} (h : decode w = .ok i) (s : State) :
    reportedFailure w s = commandFailure i s := by
  simp only [reportedFailure, commandFailure, h]
  cases unmetPrecondition i s <;> rfl

theorem reportedFailure_of_error {w : Word} {e : DecodeError} (h : decode w = .error e) (s : State) :
    reportedFailure w s = some (.illegalCommand, w) := by
  simp only [reportedFailure, h]

/-- R108 for each command; the LDP terms with `k` 6 and 7, which no word decodes to, are left out (R50 d, log 8). -/
theorem exec_reports {i : Instr} (hwf : i.wellFormed = true) (s : State) :
    ∃ t, exec i s = .next t ∧ Reports (commandFailure i s) s t := by
  cases i with
  | ldrs imm =>
    exact ⟨_, rfl, reports_unlessRaise (by simp) <| reports_unlessInvalid bne_iff_ne <|
      reports_of_housekeepingAfter (housekeepingAfter_calibrate s imm)⟩
  | ldp k imm =>
    exact ⟨_, exec_ldp_of_le (of_decide_eq_true hwf) imm s, reports_of_housekeepingAfter (housekeepingAfter_load s _ imm)⟩
  | clre => exact ⟨_, rfl, reports_of_housekeepingAfter (housekeepingAfter_clear s)⟩
  | cvolt | cpct | ctemp | ctime | etemp | vvth | unpk | unpks | dvth => exact ⟨_, rfl, reports_doneResult _ _ s⟩
  | ccap imm | ccur imm => exact ⟨_, rfl, reports_divideByRsense _ imm s⟩
  | cvthb imm =>
    exact ⟨_, rfl, reports_unlessInvalid (beq_iff_eq.trans not_not.symm) (reports_doneResult _ _ s)⟩
  | evthb imm =>
    exact ⟨_, rfl, reports_unlessInvalid (validVth_iff.trans not_not.symm) (reports_doneResult _ _ s)⟩
  | pcfg => exact ⟨_, rfl, reports_encodeConfig s⟩
  | evth =>
    exact ⟨_, rfl, reports_encodePair (bad := fun v => ¬ IsThreshold (sval v)) (fun _ => validVth_iff.trans not_not.symm) _ _ s⟩
  | pack =>
    exact ⟨_, rfl, reports_encodePair (bad := fun v => 255 < uval v) (fun _ => decide_eq_true_iff.trans not_lt.symm) _ _ s⟩
  | packs =>
    exact ⟨_, rfl, reports_encodePair (bad := fun v => sval v < -128 ∨ 127 < sval v)
      (fun v => (fitsSignedByte_iff v).trans (by rw [not_or, not_lt, not_lt])) _ _ s⟩

/-! ### Two runs from the same inputs (R111) -/

theorem SameInputs.symm {s t : State} (h : SameInputs s t) : SameInputs t s := ⟨h.p.symm, h.rsense.symm, h.calv.symm⟩

theorem SameInputs.trans {s t u : State} (h : SameInputs s t) (h' : SameInputs t u) : SameInputs s u :=
  ⟨h'.p.trans h.p, h'.rsense.trans h.rsense, h'.calv.trans h.calv⟩

/-- An exception leaves every input of a command as it was (R101). -/
theorem sameInputs_raise (e : Cause) (info : Word) (s : State) : SameInputs s (raise e info s) := ⟨rfl, rfl, by simp⟩

theorem sameInputs_doneHousekeeping (s : State) : SameInputs s (doneHousekeeping s) := ⟨rfl, rfl, by simp⟩

/-- The inputs that two runs leave are the same if each run leaves those it found. -/
theorem SameInputs.of_kept {s s' t t' : State} (h : SameInputs s s') (hkept : SameInputs s t) (hkept' : SameInputs s' t') :
    SameInputs t t' :=
  hkept.symm.trans (h.trans hkept')

/-- LDRS loads the same calibration in both runs, or in neither. -/
theorem sameInputs_ldrs {imm : Half} {s s' t t' : State} (h : SameInputs s s')
    (ht : exec (.ldrs imm) s = .next t) (ht' : exec (.ldrs imm) s' = .next t') : SameInputs t t' := by
  cases ht; cases ht'
  have hraise (e : Cause) (info : Word) : SameInputs (raise e info s) (raise e info s') :=
    h.of_kept (sameInputs_raise e info s) (sameInputs_raise e info s')
  have hcalibrated : SameInputs (s.calibrate imm) (s'.calibrate imm) := ⟨h.p, rfl, by simp⟩
  simp only [h.calv]
  exact unlessRaise_rel (hraise _ _) <| unlessRaise_rel (hraise _ _) <|
    hcalibrated.of_kept (sameInputs_doneHousekeeping _) (sameInputs_doneHousekeeping _)

/-- LDP loads the same register with the same value in both runs, or none in either. -/
theorem sameInputs_ldp {k : BitVec 3} {imm : Half} {s s' t t' : State} (h : SameInputs s s')
    (ht : exec (.ldp k imm) s = .next t) (ht' : exec (.ldp k imm) s' = .next t') : SameInputs t t' := by
  simp only [exec, execLdp] at ht ht'
  cases hk : paramIndex k with
  | some j =>
    rw [hk] at ht ht'
    cases ht; cases ht'
    have hloaded : SameInputs (s.withParam j imm) (s'.withParam j imm) := ⟨by simp [h.p], h.rsense, h.calv⟩
    exact hloaded.of_kept (sameInputs_doneHousekeeping _) (sameInputs_doneHousekeeping _)
  | none =>
    rw [hk] at ht ht'
    cases ht; cases ht'
    exact h.of_kept (sameInputs_raise _ _ s) (sameInputs_raise _ _ s')

/-- Two runs of one command from the same inputs leave the same inputs. -/
theorem sameInputs_of_exec {i : Instr} {s s' t t' : State} (h : SameInputs s s')
    (ht : exec i s = .next t) (ht' : exec i s' = .next t') : SameInputs t t' := by
  cases hhousekeeping : isHousekeeping i with
  | false =>
    exact h.of_kept (sameInputs_of_ending (ending_of_exec ht) hhousekeeping)
      (sameInputs_of_ending (ending_of_exec ht') hhousekeeping)
  | true =>
    cases i with
    | ldrs imm => exact sameInputs_ldrs h ht ht'
    | ldp k imm => exact sameInputs_ldp h ht ht'
    | clre =>
      cases ht; cases ht'
      exact ⟨h.p, h.rsense, by simpa using h.calv⟩
    | cvolt | cpct | ctemp | ccap | ccur | ctime | cvthb | etemp | pcfg | vvth | evthb | evth | pack | packs | unpk | unpks
    | dvth => exact absurd hhousekeeping Bool.false_ne_true

/-- Two runs of one word from the same inputs report the same outcome and leave the same inputs. -/
theorem same_of_runCommand {w : Word} {s s' t t' : State} (h : SameInputs s s')
    (ht : runCommand w s = .next t) (ht' : runCommand w s' = .next t') : SameInputs t t' ∧ SameReport t t' := by
  cases hdec : decode w with
  | ok i =>
    rw [runCommand_of_decode hdec] at ht ht'
    exact ⟨sameInputs_of_exec h ht ht', sameReport_of_exec (inputsAgree_of_sameInputs i h) ht ht'⟩
  | error e =>
    rw [runCommand_of_error hdec] at ht ht'
    cases ht; cases ht'
    exact ⟨h.of_kept (sameInputs_raise _ _ s) (sameInputs_raise _ _ s'), (sameAnswer_raise _ w s s').toSameReport⟩

/-- A failure leaves no result (R101). -/
theorem noResult_of_failure {w : Word} {s t : State} (h : runCommand w s = .next t) (herr : statErr t.stat ≠ 0#3) :
    t.res = 0#32 ∧ t.aux = 0#32 ∧ statRv t.stat = false := by
  refine of_runCommand h fun i hend => ?_
  cases hend with
  | result | loaded | calibrated | cleared => exact absurd (by simp) herr
  | notCalibrated | calLocked | invalid | illegal => exact ⟨rfl, rfl, by simp⟩

/-! ### The sticky flag after one word (R113) -/

/-- A word is that of CLRE exactly if it decodes to CLRE. -/
theorem eq_encode_clre_iff {w : Word} {i : Instr} (h : decode w = .ok i) : w = encode .clre ↔ i = .clre := by
  obtain ⟨rfl, -⟩ := encode_of_decode h
  constructor
  · intro hword
    rw [hword] at h
    exact (Except.ok.inj ((decode_encode (i := .clre) rfl).symm.trans h)).symm
  · exact congrArg encode

/-- A word sets `SE` if it fails, clears it if it is CLRE, and otherwise keeps it. -/
theorem statSe_of_runCommand {w : Word} {s t : State} (h : runCommand w s = .next t) :
    statSe t.stat = (statErr t.stat != 0#3 || (statSe s.stat && w != encode .clre)) := by
  rcases ending_of_runCommand h with ⟨i, hdec, hend⟩ | rfl
  · by_cases hclre : i = .clre
    · obtain rfl : w = encode .clre := (eq_encode_clre_iff hdec).mpr hclre
      cases (runCommand_encode (i := .clre) rfl s).symm.trans h
      simp
    · have hword : (w != encode .clre) = true := bne_iff_ne.mpr (mt (eq_encode_clre_iff hdec).mp hclre)
      rw [statSe_of_ending hend hclre, hword, Bool.and_true, Bool.or_comm]
  · simp [statusCode]

theorem failureOnRecord_cons {w : Word} {s t : State} (h : runCommand w s = .next t) (before : Bool) (ws : List Word) :
    failureOnRecord before (w :: ws) s =
      failureOnRecord (statErr t.stat != 0#3 || (before && w != encode .clre)) ws t := by
  simp only [failureOnRecord, h]

/-- R113 for a list of words, from any state. -/
theorem statSe_of_runCommands (ws : List Word) {s t : State} (h : runCommands ws s = .next t) :
    statSe t.stat = failureOnRecord (statSe s.stat) ws s := by
  induction ws generalizing s with
  | nil => cases h; rfl
  | cons w ws ih =>
    obtain ⟨u, hu, -⟩ := runCommand_next w s
    rw [runCommands_cons hu] at h
    rw [ih h, statSe_of_runCommand hu, failureOnRecord_cons hu]

/-! ### The statements -/

/-- Settles O20: the checks of each command are those of the tables, in their order (`exec_reports`). -/
theorem firstApplicableExceptionIsReported : Obligations.FirstApplicableExceptionIsReported := by
  intro w s
  have hreports : ∃ t, runCommand w s = .next t ∧ Reports (reportedFailure w s) s t := by
    cases hdec : decode w with
    | ok i =>
      rw [runCommand_of_decode hdec, reportedFailure_of_decode hdec]
      exact exec_reports (encode_of_decode hdec).2 s
    | error e =>
      rw [runCommand_of_error hdec, reportedFailure_of_error hdec]
      exact ⟨_, rfl, failureAfter_raise _ w s⟩
  exact hreports

/-- Settles O21: both runs make the same checks on the same inputs (`same_of_runCommand`); a computing command answers from those
inputs, and a failure leaves no result in either run. -/
theorem pastOutcomesDoNotMatter : Obligations.PastOutcomesDoNotMatter := by
  intro w s s' t t' h ht ht'
  obtain ⟨hinputs, herr, herrval⟩ := same_of_runCommand h ht ht'
  refine ⟨hinputs, herr, herrval, ?_⟩
  rintro (hfailed | ⟨i, hdec, hcomputing⟩)
  · obtain ⟨hres, haux, hrv⟩ := noResult_of_failure ht hfailed
    obtain ⟨hres', haux', hrv'⟩ := noResult_of_failure ht' (herr ▸ hfailed)
    exact ⟨hres'.trans hres.symm, haux'.trans haux.symm, hrv'.trans hrv.symm⟩
  · rw [runCommand_of_decode hdec] at ht ht'
    obtain ⟨-, hres, haux, hrv⟩ := sameAnswer_of_exec (inputsAgree_of_sameInputs i h) hcomputing ht ht'
    exact ⟨hres, haux, hrv⟩

/-- Settles O24, by induction on the list, one word writing `SE` as the record is kept (`statSe_of_runCommand`). -/
theorem stickyFlagRecordsFailures : Obligations.StickyFlagRecordsFailures := by
  refine ⟨fun ws s t h => statSe_of_runCommands ws h, fun ws t h => ?_⟩
  have hreset : statSe State.reset.stat = false := rfl
  rw [statSe_of_runCommands ws h, hreset]

/-- Settles O10: the edge completes the word (`step_of_due`), which is illegal. -/
theorem stepRaisesIllegalCommand : Obligations.StepRaisesIllegalCommand :=
  fun _ w hf hr hw => ⟨_, (step_of_due hr hf).trans (runCommand_of_not_legalWord hw _), failureAfter_raise _ w _⟩

end Sys2Proof.Machine

/-! PROOFS of the statements of spec/70_reset_and_hazards.md: reset at a clock edge (R120, R121), and when the result registers hold a
usable result (R124, R126). -/

namespace Sys2Proof.Machine

/-! ### The three outcomes of a command word (R100, R101) -/

/-- A command that ended has computed a result, has succeeded as a housekeeping command, or has failed. -/
theorem outcome_of_ending {i : Instr} {s t : State} (h : Ending i s t) :
    (isHousekeeping i = false ∧ ResultAfter t.res t.aux s t) ∨ (isHousekeeping i = true ∧ HousekeepingAfter s t) ∨
    ∃ e info, FailureAfter e info s t := by
  cases h with
  | result r a computing => exact .inl ⟨computing, resultAfter_doneResult r a s⟩
  | loaded k v ldp hk => exact .inr (.inl ⟨ldp ▸ rfl, housekeepingAfter_load s _ v⟩)
  | calibrated v ldrs => exact .inr (.inl ⟨ldrs ▸ rfl, housekeepingAfter_calibrate s v⟩)
  | cleared clre => exact .inr (.inl ⟨clre ▸ rfl, housekeepingAfter_clear s⟩)
  | notCalibrated info | calLocked info | invalid info | illegal info => exact .inr (.inr ⟨_, info, failureAfter_raise _ info s⟩)

/-- `outcome_of_ending` for a word: an illegal one fails. -/
theorem outcome_of_runCommand {w : Word} {s t : State} (h : runCommand w s = .next t) :
    (∃ i, decode w = .ok i ∧ isHousekeeping i = false ∧ ResultAfter t.res t.aux s t) ∨
    (∃ i, decode w = .ok i ∧ isHousekeeping i = true ∧ HousekeepingAfter s t) ∨
    ∃ e info, FailureAfter e info s t := by
  rcases ending_of_runCommand h with ⟨i, hdec, hend⟩ | rfl
  · rcases outcome_of_ending hend with hresult | hkept | hfailed
    · exact .inl ⟨i, hdec, hresult⟩
    · exact .inr (.inl ⟨i, hdec, hkept⟩)
    · exact .inr (.inr hfailed)
  · exact .inr (.inr ⟨_, w, failureAfter_raise _ w s⟩)

theorem statErr_ne_zero_of_failureAfter {e : Cause} {info : Word} {s t : State} (h : FailureAfter e info s t) :
    statErr t.stat ≠ 0#3 := by
  rw [h.err]
  exact statusCode_ne_zero e

/-- The kind of a legal word is that of the command it decodes to. -/
theorem exists_decode_kind_iff {w : Word} {i : Instr} (h : decode w = .ok i) (kind : Bool) :
    (∃ j, decode w = .ok j ∧ isHousekeeping j = kind) ↔ isHousekeeping i = kind := by
  simp [h]

/-! ### When `RES` and `AUX` hold a usable result (R124, R126) -/

theorem resultUsable_iff {w : Word} {s t : State} (h : runCommand w s = .next t) :
    ResultUsable t ↔ statErr t.stat = 0#3 ∧
      ((∃ i, decode w = .ok i ∧ isHousekeeping i = false) ∨ statRv s.stat = true) := by
  rcases outcome_of_runCommand h with ⟨i, hdec, hcomputing, hresult⟩ | ⟨i, hdec, hhousekeeping, hkept⟩ | ⟨e, info, hfailed⟩
  · exact iff_of_true ⟨hresult.rv, hresult.err⟩ ⟨hresult.err, .inl ⟨i, hdec, hcomputing⟩⟩
  · rw [ResultUsable, exists_decode_kind_iff hdec, hhousekeeping, hkept.rv, hkept.err]
    simp
  · have herr : statErr t.stat ≠ 0#3 := statErr_ne_zero_of_failureAfter hfailed
    exact iff_of_false (fun ⟨_, hzero⟩ => herr hzero) (fun ⟨hzero, _⟩ => herr hzero)

/-- Of the three outcomes only the housekeeping success is open to a housekeeping command whose `ERR` is zero (R124). -/
theorem housekeepingAfter_of_success {w : Word} {s t : State} (h : runCommand w s = .next t)
    (hkind : ∃ i, decode w = .ok i ∧ isHousekeeping i = true) (herr : statErr t.stat = 0#3) : HousekeepingAfter s t := by
  rcases outcome_of_runCommand h with ⟨i, hdec, hcomputing, -⟩ | ⟨-, -, -, hkept⟩ | ⟨e, info, hfailed⟩
  · rw [exists_decode_kind_iff hdec, hcomputing] at hkind
    exact absurd hkind Bool.false_ne_true
  · exact hkept
  · exact absurd herr (statErr_ne_zero_of_failureAfter hfailed)

/-! ### The statements -/

/-- Settles O23, by the three outcomes of a word (`outcome_of_runCommand`). -/
theorem resultUsableOnlyAfterSuccess : Obligations.ResultUsableOnlyAfterSuccess := by
  refine fun w s t h => ⟨resultUsable_iff h, fun hkind herr => ?_, fun herr => ?_⟩
  · have hkept : HousekeepingAfter s t := housekeepingAfter_of_success h hkind herr
    exact ⟨hkept.res, hkept.aux, hkept.rv⟩
  · obtain ⟨hres, haux, -⟩ := noResult_of_failure h herr
    exact ⟨hres, haux, fun ⟨_, hzero⟩ => herr hzero⟩

/-- Settles O13: the edge takes `resetBlock` (`step_of_rst`), which is the reset state but for the host's schedule. -/
theorem resetDominates : Obligations.ResetDominates :=
  fun s hrst => ⟨_, step_of_rst hrst, sameRegisters_of_port State.reset false none s.schedule.tail, rfl, rfl, fun _ => rfl, rfl⟩

end Sys2Proof.Machine
